-- ==== Sys2Proof/Word.lean ====
section
/-! DEFINITION. The word types of the FW960, bit-field access, and the sparse map that every store of the model is held in. -/

namespace Sys2Proof

/-- One byte of memory. -/
abbrev Byte := BitVec 8
/-- A class-S value (R105): 64 bits. -/
abbrev Dw := BitVec 64
/-- A class-V value (R105, R157): 4,096 bits, 128 lanes of 32. -/
abbrev Vec := BitVec 4096
/-- A class-M value (R105): 128 bits. -/
abbrev Mask := BitVec 128

/-- Field [hi:lo] of a number (R7: both ends included, bit 0 least significant). -/
def fld (x hi lo : Nat) : Nat := x / 2 ^ lo % 2 ^ (hi + 1 - lo)

/-- Bit `k` of a number. -/
def bitOf (x k : Nat) : Bool := x / 2 ^ k % 2 == 1

/-- The number `x`, read as a two's-complement number of `n` bits. -/
def toSigned (n x : Nat) : Int :=
  let y := x % 2 ^ n
  if 2 * y < 2 ^ n then (y : Int) else (y : Int) - (2 ^ n : Nat)

/-- An integer wrapped to `n` bits (WRAP32, WRAP64 of R95, as a code). -/
def wrapInt (n : Nat) (i : Int) : Nat := (i % (2 ^ n : Nat)).toNat

/-- A sparse map from numbers to values: keys strictly rising. An absent key reads as a default. -/
abbrev Sp (α : Type) := List (Nat × α)

namespace Sp

/-- The entry of key `k`, if one is listed. -/
def find? {α : Type} : Sp α → Nat → Option α
  | [], _ => none
  | (a, v) :: t, k => if a = k then some v else find? t k

/-- The value of key `k`, or the default. -/
def get {α : Type} (d : α) (m : Sp α) (k : Nat) : α := (find? m k).getD d

/-- List the pair (k, v), keeping keys strictly rising. -/
def put {α : Type} : Sp α → Nat → α → Sp α
  | [], k, v => [(k, v)]
  | (a, w) :: t, k, v =>
    if k < a then (k, v) :: (a, w) :: t
    else if k = a then (k, v) :: t
    else (a, w) :: put t k v

/-- Remove key `k`. -/
def erase {α : Type} : Sp α → Nat → Sp α
  | [], _ => []
  | (a, w) :: t, k =>
    if k < a then (a, w) :: t
    else if k = a then t
    else (a, w) :: erase t k

/-- Set key `k` to `v`: the default value is not listed, so that equal maps are equal lists. -/
def set {α : Type} [DecidableEq α] (d : α) (m : Sp α) (k : Nat) (v : α) : Sp α :=
  if v = d then erase m k else put m k v

/-- Keys strictly rising, all of them above `lo`. -/
def sortedFrom {α : Type} : Nat → Sp α → Bool
  | _, [] => true
  | lo, (a, _) :: t => decide (lo ≤ a) && sortedFrom (a + 1) t

/-- The canonical form: keys strictly rising, and no entry equal to the default. -/
def wf {α : Type} [DecidableEq α] (d : α) (m : Sp α) : Bool :=
  sortedFrom 0 m && m.all (fun e => decide (e.2 ≠ d))

end Sp

end Sys2Proof
end

