-- ==== Sys2Proof/Config.lean ====
section
/-! DEFINITION. What every FW960 fixes (R1, R2, R15, R28, R58), the codes of R72 and R145, and the free values the manual leaves open. -/

namespace Sys2Proof.Config

/-- Free value: the signature that the scan pattern of R155 gives on physical core `core` of cluster `clu`, at its `n`-th run.
The manual names the register that receives it and no value (log entry 3). -/
opaque scanSignature (clu core n : Nat) : Dw

/-- Free value: a byte read of a physical page that is mapped under two key ids "may return any bytes", and so may, under its poison, one whose
key is not installed (R399; log entry 19) or whose home does not answer (R423); log entry 4. -/
opaque mixedKeyByte (n : Nat) : Byte

/-- Free value: what a POISON trap reports as the poisoned address when a stream accumulator segment was poisoned; a segment has
no address (R320, R410; log entry 11). -/
opaque segmentAddr (n : Nat) : Dw

/-- Free value: N of sstt when GRP is 0; the manual calls it valid when GRP is 1 (R238; log entry 12). -/
opaque ungroupedN (n : Nat) : BitVec 17

/-- Free value: half the stall bundles, less one, that an energy freeze has inserted when its grant period ends (R36, R54, R56); the
model keeps no cycle count of the pair (log entry 14). -/
opaque frozenPairs (n : Nat) : BitVec 7

/-- Free value: a byte of a save record beyond its header, or of a suspend image; both are "laid out by the FW960 for its own
resumption" (R382, R432; log entry 15). -/
opaque imageByte (n : Nat) : Byte

/-- The device number of this device within its domain (R107 devid): fixed for the machine (log entry 5). -/
def devId : Nat := 0

/-- Free value: whether the host has enabled CXL.cache on the link (R390), a setting made outside the device and fixed for the
machine (log entry 9). -/
opaque cxlCache : Bool

/-- Compute dies, clusters a die, logical cores a cluster, physical cores a cluster (R1, R153). -/
def dies : Nat := 4
def clustersPerDie : Nat := 16
def coresPerCluster : Nat := 16
def physPerCluster : Nat := 17

/-- Scratchpad and L1 SRAM of a core, in bytes (R2). -/
def sramBytes : Nat := 1048576

/-- Element slots of a core's stream accumulator store (R2, R306). -/
def saSlots : Nat := 49152

/-- The settling latency between two operating points, in bundles (R58): a rise of d points takes 32 + 96d, a fall 32 + 16d. -/
def settling (a b : Nat) : Nat :=
  if a = b then 0 else if a < b then 32 + 96 * (b - a) else 32 + 16 * (a - b)

/-- Copy engines a die, and channels an engine (R321). -/
def enginesPerDie : Nat := 12
def channelsPerEngine : Nat := 192

/-- Units of 64 pJ in one millijoule (R379). -/
def unitsPerMillijoule : Nat := 15625000

end Sys2Proof.Config
end

