-- ==== Sys2Proof/Syntax.lean ====
section
/-! DEFINITION. The instruction syntax: the bundle (R96), the heads of move words (R100) and the one inductive of all steps. -/

namespace Sys2Proof

/-- The 256 bits of a bundle, cut into its fields (R96). -/
structure Bundle where
  /-- [31:0]: the header (R98). -/
  hdr : BitVec 32 := 0
  /-- Slots 0 to 5: the move slots (R100). -/
  m0 : BitVec 24 := 0
  m1 : BitVec 24 := 0
  m2 : BitVec 24 := 0
  m3 : BitVec 24 := 0
  m4 : BitVec 24 := 0
  m5 : BitVec 24 := 0
  /-- Slot 6: the matrix slot (R112). -/
  mat : BitVec 24 := 0
  /-- Slot 7: the engine slot (R114). -/
  eng : BitVec 24 := 0
  /-- [255:224]: the immediate pool (R99). -/
  pool : BitVec 32 := 0
deriving DecidableEq, Repr

/-- The fields of a trigger move beside its unit and port (R100): W, INV, GRD and the source field. -/
structure MoveHead where
  w : BitVec 1
  inv : BitVec 1
  grd : BitVec 2
  src : BitVec 10
deriving DecidableEq, Repr

/-- The fields of a move that is no trigger, whose W must be 0 (R104). -/
structure PlainHead where
  inv : BitVec 1
  grd : BitVec 2
  src : BitVec 10
deriving DecidableEq, Repr

/-- A request of the host (R388, R389): through BAR 0 (region 10 of the device), BAR 2 (the device's HBM, as much as its size
exposes) or BAR 4 (the MSI-X table and pending bits), or to physical memory (HDM, host memory). -/
inductive HostReq where
  | barRead (off size : Nat)
  | barWrite (off size : Nat) (val : Dw)
  | bar2Read (off size : Nat)
  | bar2Write (off size : Nat) (val : Dw)
  | bar4Read (off size : Nat)
  | bar4Write (off size : Nat) (val : Dw)
  | memRead (pa size : Nat)
  | memWrite (pa size : Nat) (val : Dw)
deriving DecidableEq, Repr

/-- What a packet's launch takes from the descriptor of its queue (R359, R400): OWNER, PTROOT, PRIV, DEVMASK, and the highest class. -/
structure QueueRights where
  owner : Byte := 0
  root : Nat := 0
  priv : Bool := false
  devmask : Nat := 0
  cls : Nat := 0
deriving DecidableEq, Repr

/-- A message that arrives over Orbit from another device of the domain (R386, R431, R434). -/
inductive OrbitMsg where
  | load (pa size : Nat)
  | store (pa size : Nat) (val : Dw)
  | fetchAdd (pa size : Nat) (val : Dw)
  | swap (pa size : Nat) (val : Dw)
  | cas (pa size : Nat) (cmp val : Dw)
  | notify (die q : Nat) (val : Dw)
  /-- A packet's share for device `dst`, forwarded by launch `launch` of device `dev`, and the completion of the share of device `dev`
  with its status. -/
  | share (dst dev launch : Nat) (die q : Nat) (own : QueueRights) (packet : List Dw)
  | shareDone (dst launch : Nat) (dev status : Nat)
  /-- The launch that device `dev` has forwarded is killed (R384, R386). -/
  | shareKill (dst dev launch status : Nat)
  /-- Energy that the share of device `dev` was charged, on its way to the launch of device `dst`; and the class that the launch which
  device `dev` has forwarded now has (R379, R386). -/
  | energy (dst launch dev units : Nat)
  | shareClass (dst dev launch cls : Nat)
  /-- The answer to a load or an atomic: the value, and whether it is poisoned. -/
  | data (pa : Nat) (val : Dw) (mark : Bool)
  /-- Another device of the domain is suspended, or runs again (R434). -/
  | peer (dev : Nat) (suspended : Bool)
  | suspend
  | resume
deriving DecidableEq, Repr

/-- Where an uncorrectable error strikes (R409, R320): a granule of an HBM stack, of a line in the L2 or in a core's L1, of a core's
scratchpad, a segment of a core's stream accumulator store, or a row of an accumulator tile. -/
inductive PoisonPlace where
  | mem (granule : Nat)
  | l2 (granule : Nat)
  | l1 (core granule : Nat)
  | scratch (core granule : Nat)
  | segment (core row : Nat)
  | tileRow (core tile row : Nat)
deriving DecidableEq, Repr

/-- What the scrubber finds in one granule (R416): correct, correctable, or uncorrectable. -/
inductive ScrubResult where
  | clean
  | correctable
  | uncorrectable
deriving DecidableEq, Repr

/-- The whole steps of the machine: one constructor per row of spec/opcode_table.json, in its order.
A row with an encoding (a move-slot, matrix-slot or engine-slot word) carries the fields of its word; it stands for the
issue of a bundle that holds that word and nothing else. A row without an encoding is a step of one of the machine's agents
and carries what names that agent. -/
inductive Instr where
  /-- R31: A core issues one bundle of a context: its moves, triggers, port writes and dispatches take effect in the fixed order, and the bundle's energy weight is charged. -/
  | bundleIssue (b : Bundle)
  /-- R54: Every 256 cycles of the pair the energy sum returns to zero and a bundle held by the grant issues. -/
  | grantPeriodStart (pair : Nat)
  /-- R59: After the settling latency the pair's clock and supply reach the target operating point and any next move starts. -/
  | opMoveComplete (pair : Nat)
  /-- R131: A loop level's count reaches zero at its end bundle, the level ends and issue continues in sequence. -/
  | loopCountExpire (core : Nat) (ctx : Nat) (lvl : Nat)
  /-- R51: A blocked bundle with MB set switches its context out, recording in-flight results in the shadow buffer and picking the next context. -/
  | contextSwitchOut (core : Nat)
  /-- R52: A switched-out context whose blocking condition has cleared is chosen again and its blocked bundle issues first. -/
  | contextResume (core : Nat) (ctx : Nat)
  /-- R50: A blocked bundle with MB clear stalls the core in place until its blocking condition clears. -/
  | stallInPlace (core : Nat)
  /-- R50: The blocking condition of a stall in place clears, or an asynchronous trap becomes pending, and the stall ends. -/
  | stallEnd (core : Nat)
  /-- R32: A result of latency k triggered in bundle i is written to its latch and destination register in bundle i+k, or from the shadow buffer after a resume. -/
  | resultWrite (core : Nat) (ctx : Nat)
  /-- R35: The data of a global-memory result that was due arrives and the freeze it caused ends. -/
  | memoryDataArrival (core : Nat)
  /-- R35: The missing bundle arrives and the fetch freeze ends. -/
  | bundleFetchFill (core : Nat)
  /-- R103: A plain move writes a register, visible from the next bundle. -/
  | registerMove (m : PlainHead) (d : BitVec 8)
  /-- R103: A move sets a unit's sticky operand port a. -/
  | portAWrite (m : PlainHead) (u : BitVec 4)
  /-- R103: A move sets a unit's sticky operand port b. -/
  | portBWrite (m : PlainHead) (u : BitVec 4)
  /-- R110: A move to port d sets a one-shot destination override for the unit's next trigger. -/
  | portDOverride (m : PlainHead) (u : BitVec 4)
  /-- R111: A move sets a unit's configuration port, checked later at each trigger. -/
  | portCfgWrite (m : PlainHead) (u : BitVec 4)
  /-- R123: Scalar 64-bit wrapping add of t and a. -/
  | sxAdd (m : MoveHead) (u : BitVec 1)
  /-- R123: Scalar wrapping subtract t minus a. -/
  | sxSub (m : MoveHead) (u : BitVec 1)
  /-- R123: Scalar bitwise and. -/
  | sxAnd (m : MoveHead) (u : BitVec 1)
  /-- R123: Scalar bitwise or. -/
  | sxOr (m : MoveHead) (u : BitVec 1)
  /-- R123: Scalar bitwise xor. -/
  | sxXor (m : MoveHead) (u : BitVec 1)
  /-- R123: Scalar shift left by a[5:0]. -/
  | sxShl (m : MoveHead) (u : BitVec 1)
  /-- R123: Scalar logical shift right by a[5:0]. -/
  | sxShr (m : MoveHead) (u : BitVec 1)
  /-- R123: Scalar arithmetic shift right by a[5:0]. -/
  | sxSar (m : MoveHead) (u : BitVec 1)
  /-- R123: Scalar signed minimum. -/
  | sxMin (m : MoveHead) (u : BitVec 1)
  /-- R123: Scalar signed maximum. -/
  | sxMax (m : MoveHead) (u : BitVec 1)
  /-- R123: Scalar unsigned minimum. -/
  | sxMinu (m : MoveHead) (u : BitVec 1)
  /-- R123: Scalar unsigned maximum. -/
  | sxMaxu (m : MoveHead) (u : BitVec 1)
  /-- R123: Scalar compare equal, yielding 0 or 1. -/
  | sxCeq (m : MoveHead) (u : BitVec 1)
  /-- R123: Scalar compare not equal. -/
  | sxCne (m : MoveHead) (u : BitVec 1)
  /-- R123: Scalar signed compare less than. -/
  | sxClt (m : MoveHead) (u : BitVec 1)
  /-- R123: Scalar unsigned compare less than. -/
  | sxCltu (m : MoveHead) (u : BitVec 1)
  /-- R123: Scalar signed compare less or equal. -/
  | sxCle (m : MoveHead) (u : BitVec 1)
  /-- R123: Scalar unsigned compare less or equal. -/
  | sxCleu (m : MoveHead) (u : BitVec 1)
  /-- R123: Scalar select of t or a by b[0]. -/
  | sxSel (m : MoveHead) (u : BitVec 1)
  /-- R123: Count of leading zero bits of t. -/
  | sxClz (m : MoveHead) (u : BitVec 1)
  /-- R123: Count of one bits of t. -/
  | sxPopc (m : MoveHead) (u : BitVec 1)
  /-- R123: Sign extension of t from a[6:0] bits. -/
  | sxSext (m : MoveHead) (u : BitVec 1)
  /-- R123: Scalar signed saturating add. -/
  | sxAdds (m : MoveHead) (u : BitVec 1)
  /-- R124: Bit-field extract with position and width from a. -/
  | sxBfx (m : MoveHead) (u : BitVec 1)
  /-- R124: Bit-field insert of b into t at the field given by a. -/
  | sxBfi (m : MoveHead) (u : BitVec 1)
  /-- R123: Passes t through as the result. -/
  | sxPass (m : MoveHead) (u : BitVec 1)
  /-- R123: Packs the low words of t and a into one dword. -/
  | sxPack (m : MoveHead) (u : BitVec 1)
  /-- R125: Wrapping 64-bit multiply, latency 3. -/
  | smMul (m : MoveHead)
  /-- R125: High half of the signed 128-bit product. -/
  | smMulh (m : MoveHead)
  /-- R125: High half of the unsigned 128-bit product. -/
  | smMulhu (m : MoveHead)
  /-- R125: Wrapping multiply-add t x a + b. -/
  | smMadd (m : MoveHead)
  /-- R126: Signed division, latency 24, never trapping. -/
  | smDiv (m : MoveHead)
  /-- R126: Unsigned division. -/
  | smDivu (m : MoveHead)
  /-- R126: Signed remainder. -/
  | smRem (m : MoveHead)
  /-- R126: Unsigned remainder. -/
  | smRemu (m : MoveHead)
  /-- R127: Absolute jump to t after two delay bundles. -/
  | jmp (m : MoveHead)
  /-- R127: Relative branch to address + t. -/
  | br (m : MoveHead)
  /-- R127: Relative branch when a is not zero. -/
  | bnz (m : MoveHead)
  /-- R127: Relative branch when a is zero. -/
  | bz (m : MoveHead)
  /-- R128: Relative call writing the return address to s63 and b3. -/
  | call (m : MoveHead)
  /-- R127: Return to the address in t. -/
  | ret (m : MoveHead)
  /-- R130: Starts counted loop level a[1:0] with count t. -/
  | loop (m : MoveHead)
  /-- R134: Starts a modulo loop with iteration count, stage layout and optional rollback. -/
  | mloop (m : MoveHead)
  /-- R133: Ends the most recent active loop and branches relatively. -/
  | lbrk (m : MoveHead)
  /-- R139: Sets a repeat prefix for the context's next matrix-slot operation. -/
  | rept (m : MoveHead)
  /-- R150: Raises BREAK with CODE from t[7:0]. -/
  | trap (m : MoveHead)
  /-- R149: Returns from a handler to TEPC, restoring the program's shadowed state. -/
  | eret (m : MoveHead)
  /-- R142: Pops a wake-queue token, or blocks the bundle when the queue is empty. -/
  | wait (m : MoveHead)
  /-- R140: Arms a wake comparator over a local scratchpad range. -/
  | warm (m : MoveHead)
  /-- R151: Reads a system register into the register named by port b. -/
  | sysr (m : MoveHead)
  /-- R151: Writes t to a system register that has no behaviour of its own. -/
  | sysw (m : MoveHead)
  /-- R143: Ends the context at its bundle. -/
  | halt (m : MoveHead)
  /-- R226: Loads a byte, sign-extended. -/
  | ldb (m : MoveHead)
  /-- R226: Loads a byte, zero-extended. -/
  | ldbu (m : MoveHead)
  /-- R226: Loads a half, sign-extended. -/
  | ldh (m : MoveHead)
  /-- R226: Loads a half, zero-extended. -/
  | ldhu (m : MoveHead)
  /-- R226: Loads a word, sign-extended. -/
  | ldw (m : MoveHead)
  /-- R226: Loads a word, zero-extended. -/
  | ldwu (m : MoveHead)
  /-- R226: Loads a dword. -/
  | ldd (m : MoveHead)
  /-- R226: Stores a byte from port b. -/
  | stb (m : MoveHead)
  /-- R226: Stores a half from port b. -/
  | sth (m : MoveHead)
  /-- R226: Stores a word from port b. -/
  | stw (m : MoveHead)
  /-- R226: Stores a dword from port b. -/
  | std (m : MoveHead)
  /-- R227: An acquire, release or both at the cfg scope. -/
  | fence (m : MoveHead)
  /-- R228: Requests the line holding EA into L1, never faulting. -/
  | pref (m : MoveHead)
  /-- R228: Writes the line holding EA back to L2 if dirty. -/
  | wbl (m : MoveHead)
  /-- R228: Writes back and invalidates the line holding EA. -/
  | invl (m : MoveHead)
  /-- R229: Loads 512 bytes into a vector. -/
  | vld (m : MoveHead)
  /-- R229: Stores a vector from port b. -/
  | vst (m : MoveHead)
  /-- R229: Strided vector load. -/
  | vlds (m : MoveHead)
  /-- R229: Strided vector store. -/
  | vsts (m : MoveHead)
  /-- R229: Gathers 128 words at offsets from t. -/
  | vgth (m : MoveHead)
  /-- R229: Scatters 128 words at offsets from t. -/
  | vsct (m : MoveHead)
  /-- R229: Loads one element and broadcasts it. -/
  | vldb (m : MoveHead)
  /-- R229: Masked vector load under MREG. -/
  | vldm (m : MoveHead)
  /-- R229: Masked vector store under MREG. -/
  | vstm (m : MoveHead)
  /-- R229: Prefetches every line of a 512-byte range. -/
  | vpref (m : MoveHead)
  /-- R231: Atomic add returning the old value. -/
  | aadd (m : MoveHead)
  /-- R232: Atomic bounded increment, setting BOUND on refusal. -/
  | aincb (m : MoveHead)
  /-- R231: Atomic compare-and-swap. -/
  | acas (m : MoveHead)
  /-- R231: Atomic swap. -/
  | aswp (m : MoveHead)
  /-- R231: Atomic and. -/
  | aand (m : MoveHead)
  /-- R231: Atomic or. -/
  | aor (m : MoveHead)
  /-- R231: Atomic xor. -/
  | axor (m : MoveHead)
  /-- R231: Atomic signed minimum. -/
  | amin (m : MoveHead)
  /-- R231: Atomic signed maximum. -/
  | amax (m : MoveHead)
  /-- R231: Atomic unsigned minimum. -/
  | aminu (m : MoveHead)
  /-- R231: Atomic unsigned maximum. -/
  | amaxu (m : MoveHead)
  /-- R231: Atomic floating-point add rounded under RNE. -/
  | afadd (m : MoveHead)
  /-- R234: Atomic floating-point minimumNumber. -/
  | afmin (m : MoveHead)
  /-- R234: Atomic floating-point maximumNumber. -/
  | afmax (m : MoveHead)
  /-- R235: Promote-acquire compare-and-swap at DEV scope. -/
  | apcas (m : MoveHead)
  /-- R235: Promote-acquire load at DEV scope. -/
  | apld (m : MoveHead)
  /-- R165: Element-wise add rounded once. -/
  | vaAdd (m : MoveHead) (u : BitVec 1)
  /-- R165: Element-wise subtract. -/
  | vaSub (m : MoveHead) (u : BitVec 1)
  /-- R165: Element-wise multiply, latency 5. -/
  | vaMul (m : MoveHead) (u : BitVec 1)
  /-- R165: Fused a x b + t. -/
  | vaFma (m : MoveHead) (u : BitVec 1)
  /-- R165: Fused a x b - t. -/
  | vaFms (m : MoveHead) (u : BitVec 1)
  /-- R167: Element-wise minimumNumber or integer minimum. -/
  | vaMin (m : MoveHead) (u : BitVec 1)
  /-- R167: Element-wise maximumNumber or integer maximum. -/
  | vaMax (m : MoveHead) (u : BitVec 1)
  /-- R168: Element-wise absolute value. -/
  | vaAbs (m : MoveHead) (u : BitVec 1)
  /-- R168: Element-wise negation. -/
  | vaNeg (m : MoveHead) (u : BitVec 1)
  /-- R172: Compare equal into a 128-bit mask. -/
  | vaCeq (m : MoveHead) (u : BitVec 1)
  /-- R172: Compare less than into a mask. -/
  | vaClt (m : MoveHead) (u : BitVec 1)
  /-- R172: Compare less or equal into a mask. -/
  | vaCle (m : MoveHead) (u : BitVec 1)
  /-- R172: Compare unordered into a mask. -/
  | vaCun (m : MoveHead) (u : BitVec 1)
  /-- R173: Selects elements of a over t where mask b is set. -/
  | vaSel (m : MoveHead) (u : BitVec 1)
  /-- R177: Converts elements from FMT to DFMT, narrowing or widening by part. -/
  | vaCvt (m : MoveHead) (u : BitVec 1)
  /-- R174: 4,096-bit and. -/
  | vaAnd (m : MoveHead) (u : BitVec 1)
  /-- R174: 4,096-bit or. -/
  | vaOr (m : MoveHead) (u : BitVec 1)
  /-- R174: 4,096-bit xor. -/
  | vaXor (m : MoveHead) (u : BitVec 1)
  /-- R175: Element-wise shift left. -/
  | vaShl (m : MoveHead) (u : BitVec 1)
  /-- R175: Element-wise logical shift right. -/
  | vaShr (m : MoveHead) (u : BitVec 1)
  /-- R175: Element-wise arithmetic shift right. -/
  | vaSar (m : MoveHead) (u : BitVec 1)
  /-- R171: Scales elements by 2 to the power a. -/
  | vaScl (m : MoveHead) (u : BitVec 1)
  /-- R169: Clamps t between a and b. -/
  | vaClmp (m : MoveHead) (u : BitVec 1)
  /-- R170: Rounds elements to integers under RM. -/
  | vaRnd (m : MoveHead) (u : BitVec 1)
  /-- R178: Block-quantises to an MX format, delivering elements or scales. -/
  | vaQnt (m : MoveHead) (u : BitVec 1)
  /-- R179: Dequantises MX elements with their E8M0 scales. -/
  | vaDqn (m : MoveHead) (u : BitVec 1)
  /-- R174: Passes the vector t through. -/
  | vaMov (m : MoveHead) (u : BitVec 1)
  /-- R180: Correctly rounded reciprocal square root. -/
  | rsq (m : MoveHead)
  /-- R180: Correctly rounded reciprocal. -/
  | rcp (m : MoveHead)
  /-- R180: Correctly rounded square root. -/
  | sqrt (m : MoveHead)
  /-- R180: Correctly rounded 2 to the x. -/
  | exp2 (m : MoveHead)
  /-- R180: Correctly rounded base-2 logarithm. -/
  | log2 (m : MoveHead)
  /-- R180: Correctly rounded e to the x. -/
  | exp (m : MoveHead)
  /-- R180: Correctly rounded tanh. -/
  | tanh (m : MoveHead)
  /-- R180: Correctly rounded logistic sigmoid. -/
  | sigm (m : MoveHead)
  /-- R180: Correctly rounded SiLU. -/
  | silu (m : MoveHead)
  /-- R184: Segmented pairwise-tree sum. -/
  | rsum (m : MoveHead)
  /-- R185: Segmented maximum. -/
  | rmax (m : MoveHead)
  /-- R185: Segmented minimum. -/
  | rmin (m : MoveHead)
  /-- R187: Broadcasts one element per segment. -/
  | bcst (m : MoveHead)
  /-- R188: Permutes elements by indexes in b. -/
  | perm (m : MoveHead)
  /-- R188: Exchanges lane groups by a selector in a. -/
  | gxch (m : MoveHead)
  /-- R187: Rotates each segment by a. -/
  | rot (m : MoveHead)
  /-- R186: Segmented running sum rounded per step. -/
  | scan (m : MoveHead)
  /-- R189: Compresses elements selected by mask b. -/
  | cmpr (m : MoveHead)
  /-- R189: Expands elements into positions set in mask b. -/
  | expd (m : MoveHead)
  /-- R190: Counts one bits of the mask in t. -/
  | popm (m : MoveHead)
  /-- R190: Finds the lowest set bit of t. -/
  | ffs (m : MoveHead)
  /-- R191: Extracts element a of t as a scalar. -/
  | vtos (m : MoveHead)
  /-- R191: Inserts scalar t into element a of b. -/
  | stov (m : MoveHead)
  /-- R240: Adds COUNT elements exactly into a stream accumulator row, updating T and S. -/
  | sadd (m : MoveHead)
  /-- R240: Adds one accumulator-tile row into a stream accumulator row. -/
  | saddc (m : MoveHead)
  /-- R242: Reads normalised elements of a row group in RMS or LN mode. -/
  | srdn (m : MoveHead)
  /-- R243: Writes a row header, clearing and validating the row. -/
  | shdr (m : MoveHead)
  /-- R243: Clears a row's elements, sums and flags. -/
  | sclr (m : MoveHead)
  /-- R244: Writes an image of the row to scratchpad and clears it. -/
  | sevt (m : MoveHead)
  /-- R316: Loads an EXACT or F32 image back into a valid row. -/
  | sldr (m : MoveHead)
  /-- R238: Returns a row's state word. -/
  | sstt (m : MoveHead)
  /-- R112: An empty matrix slot enters and leaves the matrix queue. -/
  | matrixNop
  /-- R197: Sets the context's matrix configuration from a register. -/
  | mcfg (a : BitVec 4)
  /-- R200: Accumulates A x B panels into a tile over the declared beats. -/
  | mma (t : BitVec 3) (a : BitVec 4) (b : BitVec 4) (n : BitVec 8)
  /-- R200: Clears the tile then accumulates A x B. -/
  | mmaz (t : BitVec 3) (a : BitVec 4) (b : BitVec 4) (n : BitVec 8)
  /-- R201: Accumulates like mma then writes column ranks to the partner tile. -/
  | mmar (t : BitVec 3) (a : BitVec 4) (b : BitVec 4) (n : BitVec 8)
  /-- R202: Accumulates A times Plesal-decoded B strips into a tile. -/
  | mmap (t : BitVec 3) (a : BitVec 4) (d : BitVec 4) (n : BitVec 8)
  /-- R207: Copies a tile to local scratchpad, one row per beat. -/
  | accrd (t : BitVec 3) (a : BitVec 4) (n : BitVec 8)
  /-- R208: Writes scratchpad rows into a tile. -/
  | accwr (t : BitVec 3) (a : BitVec 4) (n : BitVec 8)
  /-- R209: Clears a tile to +0. -/
  | acccl (t : BitVec 3)
  /-- R204: Loads a Plesal profile record and table into a decoder profile slot. -/
  | pldef (p : BitVec 3) (a : BitVec 4) (n : BitVec 8)
  /-- R210: Marks a point in the matrix queue with a sequence tag. -/
  | mmrk (g : BitVec 8)
  /-- R41: A queued matrix operation issues at the core's first window after its predecessors and previous beats, starting its beats. -/
  | matrixOpIssue (core : Nat)
  /-- R211: One beat of an issued matrix operation is performed in a window of the issuing core. -/
  | matrixBeat (core : Nat)
  /-- R214: Remote-scratchpad operand rows that a waiting beat needs arrive and the beat proceeds. -/
  | remoteOperandArrival (core : Nat)
  /-- R210: A mark fires once every earlier queue entry has finished its scratchpad reads, updating the tag's fired count. -/
  | mmrkFire (core : Nat)
  /-- R114: An empty engine slot enters and leaves the engine queue. -/
  | engineNop
  /-- R250: Queues a linear copy described by a 32-byte descriptor. -/
  | cpy (c : BitVec 5) (a : BitVec 4) (i : BitVec 10)
  /-- R330: Queues a nested copy of up to six dimensions. -/
  | cpn (c : BitVec 5) (a : BitVec 4) (i : BitVec 10)
  /-- R250: Queues a copy that decompresses restricted Lempel-Ziv blocks. -/
  | cpz (c : BitVec 5) (a : BitVec 4) (i : BitVec 10)
  /-- R334: Queues a copy that compresses into blocks. -/
  | cpc (c : BitVec 5) (a : BitVec 4) (i : BitVec 10)
  /-- R250: Queues a copy checking CRC-32C per 4 KiB chunk. -/
  | cpk (c : BitVec 5) (a : BitVec 4) (i : BitVec 10)
  /-- R252: Queues a copy armed on an mmrk tag. -/
  | cpe (c : BitVec 5) (a : BitVec 4) (i : BitVec 10)
  /-- R254: Sends a payload to a receive ring on a target die. -/
  | send (c : BitVec 5) (a : BitVec 4) (i : BitVec 10)
  /-- R254: Takes the next message of a ring on this die into scratchpad. -/
  | recv (c : BitVec 5) (a : BitVec 4) (i : BitVec 10)
  /-- R253: Holds the engine queue until a channel watermark reaches v, then acquires. -/
  | chw (c : BitVec 5) (a : BitVec 4) (i : BitVec 10)
  /-- R253: Arms a USER_INTERRUPT for when a channel watermark reaches v. -/
  | chi (c : BitVec 5) (a : BitVec 4) (i : BitVec 10)
  /-- R257: Registers the context with a phaser in a membership mode. -/
  | phr (p : BitVec 5) (a : BitVec 4) (k : BitVec 1) (m : BitVec 2)
  /-- R257: Deregisters the context from a phaser. -/
  | phd (p : BitVec 5) (a : BitVec 4) (k : BitVec 1)
  /-- R257: Signals the member's next signal phase. -/
  | phs (p : BitVec 5) (a : BitVec 4) (k : BitVec 1)
  /-- R257: Adds expected bytes to a phase and signals it. -/
  | phb (p : BitVec 5) (a : BitVec 4) (k : BitVec 1)
  /-- R257: Holds the engine queue until the member's next wait phase completes. -/
  | phw (p : BitVec 5) (a : BitVec 4) (k : BitVec 1)
  /-- R259: Sends a Plesal encode command to the cluster encoder. -/
  | ple (a : BitVec 4) (i : BitVec 10)
  /-- R260: Sends a Plesal single-weight update command to the encoder. -/
  | plu (a : BitVec 4) (i : BitVec 10)
  /-- R262: Starts repeated checkpoint passes over a virtual range. -/
  | ckpStart (a : BitVec 4)
  /-- R261: Ends checkpoint passes after the current page. -/
  | ckpStop (a : BitVec 4)
  /-- R418: Runs a final checkpoint pass and writes its status record. -/
  | ckpQuiesce (a : BitVec 4)
  /-- R262: Writes the checkpoint status record at once. -/
  | ckpStatus (a : BitVec 4)
  /-- R41: A queued engine-slot operation issues once its predecessors, beats and waiting condition allow. -/
  | engineOpIssue (core : Nat)
  /-- R246: A lenient-mode copy held for channel occupancy proceeds once the occupancy falls. -/
  | channelOccupancyFall (core : Nat)
  /-- R335: A cpe's transfer starts once its tag has fired. -/
  | cpeStart (tid : Nat)
  /-- R324: A transfer checks and writes one piece of its logical data, faulting or writing units. -/
  | copyPiece (tid : Nat)
  /-- R247: A transfer completes, advancing the watermark and writing its completion record. -/
  | transferComplete (tid : Nat)
  /-- R344: A context whose armed watermark has been reached takes USER_INTERRUPT before its next bundle. -/
  | userInterruptTaken (core : Nat) (ctx : Nat)
  /-- R339: A phase's completion condition holds: PHASE rises, counts shift and departures take effect. -/
  | phaseComplete (ph : Nat)
  /-- R346: A sent payload arriving at a ring is placed in a slot, spilled to HBM or dropped. -/
  | ringPlacement (tid : Nat)
  /-- R347: A waiting recv takes the ring's next message or spill entry. -/
  | recvTake (tid : Nat)
  /-- R303: The cluster Plesal encoder takes its next command and runs it to its status record. -/
  | encoderCommandStart (clu : Nat)
  /-- R258: A command that waited over 1 ms for the encoder is dropped with STATE 3. -/
  | encoderCommandDrop (clu : Nat)
  /-- R282: A promotion request reaches the writer core and is acknowledged or starts a drain. -/
  | promoteRequestArrival (core : Nat)
  /-- R278: A running drain finishes, DRAINED rises and waiting requests are acknowledged. -/
  | drainComplete (core : Nat)
  /-- R281: The acknowledgement reaches the promoter, which completes its DEV acquire. -/
  | promoteAckArrival (core : Nat)
  /-- R235: A promotion target does not answer within 100 us and the operation raises PROMOTE_LOST. -/
  | promoteLost (core : Nat)
  /-- R309: An element step from a remote sadd reaches its segment and is applied indivisibly. -/
  | saElementStepArrival (k : Nat)
  /-- R272: A store to another core's scratchpad reaches that core. -/
  | space2StoreArrival (k : Nat)
  /-- R143: All contexts have halted and queues and transfers are done, so the kernel-end release follows. -/
  | coreGroupEnd (core : Nat)
  /-- R361: A write to a queue's notify register sets the notified write index. -/
  | queueNotify (die : Nat) (q : Nat) (size : Nat) (off : Nat) (val : Dw)
  /-- R360: The launch processor acquires and reads a ring slot, then clears TYPE and raises READIDX. -/
  | packetRead (die : Nat) (q : Nat)
  /-- R372: A waiting launch is placed on cores and channels when room exists. -/
  | launchPlace (l : Nat)
  /-- R369: A launch finishes, releases at RFS scope and writes its completion signal. -/
  | launchComplete (l : Nat)
  /-- R365: The launch processor rereads a barrier's watched dword on a write or every 10 us. -/
  | barrierPoll (die : Nat) (q : Nat)
  /-- R381: A launch is stopped and saved to its queue's save region. -/
  | preemption (l : Nat)
  /-- R383: A pre-empted launch is restored on its cores and continues. -/
  | resumption (l : Nat)
  /-- R377: A running launch reaches its class's quantum and becomes a pre-emption candidate. -/
  | quantumExpiry (l : Nat)
  /-- R379: A launch's energy count passes EBUDGET, lowering its class and restarting the count. -/
  | energyBudgetExceeded (l : Nat)
  /-- R389: A host PCIe or CXL request is performed at the home slice or BAR 0 register. -/
  | hostAccess (r : HostReq)
  /-- R406: A write of XINV with SEL 00 queues invalidation of every translation entry. -/
  | xinvAll
  /-- R406: A write of XINV with SEL 01 queues invalidation of an owner's entries. -/
  | xinvOwner (owner : Byte)
  /-- R406: A write of XINV with SEL 10 queues invalidation of entries translating one page. -/
  | xinvPage (owner : Byte) (vpn : Nat)
  /-- R406: A queued invalidation reaches every cache of the device and completes. -/
  | xinvComplete
  /-- R408: The streamer clears D of a dirty page, writes back its lines and sends it to the target. -/
  | ckpPage
  /-- R418: A checkpoint pass completes and its status record is written. -/
  | ckpPassEnd
  /-- R48: A supervisor write sets a pair's free or tidelocked mode unless refused. -/
  | paircfgWrite (core : Nat) (val : Dw)
  /-- R154: A write to CMAPLO or CMAPHI replaces the running core map if valid, else sets ERR. -/
  | cmapWrite (clu : Nat) (hi : Bool) (val : Dw)
  /-- R155: HOLD stops placement on a physical core and starts draining it for test. -/
  | testHold (clu : Nat) (val : Dw)
  /-- R155: START runs the 200 us pattern on the held core. -/
  | testStart (clu : Nat) (val : Dw)
  /-- R156: ABORT stops and resets the tested core and returns it to its state before HOLD. -/
  | testAbort (clu : Nat) (val : Dw)
  /-- R155: RELEASE returns a held or passed core to its former state. -/
  | testRelease (clu : Nat) (val : Dw)
  /-- R155: The held core's last context ends and STATE becomes held. -/
  | testDrainComplete (clu : Nat)
  /-- R156: The pattern ends, TESTSIG is compared with TESTEXP, and the core passes or is retired. -/
  | testPatternComplete (clu : Nat)
  /-- R436: The management firmware writes a new signed configuration image after a repair record. -/
  | configImageRewrite (clu : Nat)
  /-- R409: A correctable error is corrected in place and counted in CE. -/
  | eccCorrect (die : Nat)
  /-- R409: An uncorrectable error marks its 32-byte granule poisoned. -/
  | poisonMark (p : PoisonPlace)
  /-- R415: A memory controller refreshes a row and checks every granule on it. -/
  | scrubRow (die : Nat) (granules : List (Nat × ScrubResult))
  /-- R422: Every 10 us a die sends its heartbeat to the other dies and BEAT rises. -/
  | heartbeatSend (die : Nat)
  /-- R422: Every 10 us a die checks other dies' heartbeats, declaring a die lost after three misses. -/
  | heartbeatCheck (die : Nat)
  /-- R423: An access homed on a lost die returns poisoned data after 100 us. -/
  | lostDieAccessTimeout (core : Nat)
  /-- R425: An island's supply falls over 5 % below target and its pairs' clocks are stretched. -/
  | supplySag (die : Nat) (isl : Nat)
  /-- R426: An island's current passes its limit and its clocks are stretched. -/
  | overCurrent (die : Nat) (isl : Nat)
  /-- R385: After 100 us of excess current the launch processor kills one launch with POWER_KILL. -/
  | overCurrentKill (die : Nat)
  /-- R427: An island reaches 95 C and enters soft trip. -/
  | softTrip (die : Nat) (isl : Nat)
  /-- R427: Every 1 ms in soft trip CEIL of the island's pairs falls one point. -/
  | ceilStepDown (die : Nat) (isl : Nat)
  /-- R427: Every 10 ms below 90 C CEIL rises one point up to its written value. -/
  | ceilStepUp (die : Nat) (isl : Nat)
  /-- R428: At 105 C or on command the device stops reading queues and pre-empts every launch. -/
  | hardTrip (site : Option (Nat × Nat))
  /-- R429: At 115 C or 200 ms after a hard trip the compute dies lose power and HBM enters retention. -/
  | powerOffTrip
  /-- R432: A SUSPEND command begins saving the device to HBM retention. -/
  | suspend (domain : Bool)
  /-- R432: The last suspend step ends, the compute dies are gated and STATE becomes suspended. -/
  | suspendComplete
  /-- R435: A RESUME command begins restoring a suspended device. -/
  | resume (domain : Bool)
  /-- R435: Launches and passes have restarted, queues are read again and STATE returns to running. -/
  | resumeComplete
  /-- R438: The service die boots from flash and loads the valid configuration image with the higher SEQ sum. -/
  | deviceBoot
  /-- R438: A function applies its part of the image and reports ready in READY. -/
  | functionReady (die : Nat) (k : Nat)
  /-- R61: A pair is reset: GEN, CEIL, profile slots and grant periods start anew. -/
  | pairReset (pair : Nat)
  /-- R386: A request or message from another device of the domain arrives over Orbit: a load, store or atomic homed here, a notify store, a forwarded packet share or its completion, or a forwarded SUSPEND or RESUME. -/
  | orbitMessageArrival (m : OrbitMsg)
  /-- R434: A load or atomic to a suspended device returns poisoned data once 100 us have passed. -/
  | suspendedDeviceAccessTimeout (core : Nat)
  /-- R422: A die fails and stops sending heartbeats and answering on its links. -/
  | dieStopsAnswering (die : Nat)
  /-- R425: An island's supply returns to within 5 % of its target, the clock stretching stops and the sag episode ends. -/
  | sagEpisodeEnd (die : Nat) (isl : Nat)
  /-- R426: An island's current falls back below its limit, so its stretching ends, OC clears and no further kills follow. -/
  | overCurrentClears (die : Nat) (isl : Nat)
  /-- R427: An island's temperature falls below 90 C, ending the soft trip and starting the 10 ms CEIL recovery steps. -/
  | softTripRecovery (die : Nat) (isl : Nat)
  /-- R60: A supervisor write of CEIL in OPSTAT sets the pair's ceiling, which changes its target and can start an operating-point move. -/
  | ceilWrite (core : Nat) (val : Dw)
deriving DecidableEq, Repr

end Sys2Proof
end

