-- ==== Sys2Proof/Decode.lean ====
section
/-! DEFINITION. Decoding and encoding of bundles and slots (R96 to R118): the static checks of R119 steps 1 to 3 by name, the
decoder of the 32 bytes at a bundle address, the encoder, and the decoder of one table word. -/

namespace Sys2Proof

/-! ### Fields -/

/-- IPF of a header (R98). -/
def hdrIPF (h : Nat) : Nat := fld h 16 15
/-- LE of a header (R98). -/
def hdrLE (h : Nat) : Nat := fld h 14 13
/-- Pool entries of a format (R99). -/
def poolEntries (ipf : Nat) : Nat := if ipf = 1 then 1 else if ipf = 2 then 2 else if ipf = 3 then 4 else 0

/-- The widened pool entry k (R99). -/
def poolEntry (ipf pool k : Nat) : Dw :=
  if ipf = 1 then BitVec.ofInt 64 (toSigned 32 pool)
  else if ipf = 2 then BitVec.ofInt 64 (toSigned 16 (fld pool (16 * k + 15) (16 * k)))
  else if ipf = 3 then BitVec.ofNat 64 (fld pool (8 * k + 7) (8 * k))
  else 0

/-- The special sources of R107. -/
def isSpecial (r : Nat) : Bool :=
  (0xC0 ≤ r && r ≤ 0xC6) || (0xC8 ≤ r && r ≤ 0xCC) || (0xD0 ≤ r && r ≤ 0xD5) || r == 0xD8

/-- The identifiers of registers (R106). -/
def isReg (r : Nat) : Bool := r ≤ 0xA3

/-- The writable identifiers of R110: no s0, m0 or g0. (DEDUCED, log entry 51.) -/
def isWritable (r : Nat) : Bool := isReg r && r != 0 && r != 0x80 && r != 0xA0

/-- The number of the last trigger port of each unit (R108); units 12 to 15 have none. -/
def lastPort (u : Nat) : Nat :=
  match u with
  | 0 => 30 | 1 => 30 | 2 => 11 | 3 => 20 | 4 => 18 | 5 => 13 | 6 => 19 | 7 => 30 | 8 => 30 | 9 => 12 | 10 => 17 | 11 => 11
  | _ => 0

/-- The fields of a move word (R100 to R102). -/
def mvW (w : Nat) : Nat := fld w 23 23
def mvInv (w : Nat) : Nat := fld w 22 22
def mvGrd (w : Nat) : Nat := fld w 21 20
def mvSrc (w : Nat) : Nat := fld w 19 10
def mvDst (w : Nat) : Nat := fld w 9 0
/-- The move goes to a unit port (R102). -/
def mvIsPort (w : Nat) : Bool := bitOf w 9
def mvUnit (w : Nat) : Nat := fld w 8 5
def mvPort (w : Nat) : Nat := fld w 4 0
/-- The move is a trigger move (R103). -/
def mvIsTrig (w : Nat) : Bool := mvIsPort w && 4 ≤ mvPort w

/-! ### Static checks (R119 steps 1 to 3) -/

/-- Why an encoding is illegal: the trap the bundle takes (R119). -/
inductive Illegal where
  | illegalBundle
  | illegalMove
  | scheduleFault
deriving DecidableEq, Repr

/-- The source field of a move is illegal (R101). -/
def srcIllegal (ipf src : Nat) : Bool :=
  let c := fld src 9 8
  let v := fld src 7 0
  if c = 0 then !(isReg v || isSpecial v)
  else if c = 1 then decide (16 ≤ v)
  else if c = 2 then false
  else decide (poolEntries ipf ≤ v)

/-- The destination field names no register and no port of its unit (R102, R108). -/
def dstIllegal (dst : Nat) : Bool :=
  if bitOf dst 9 then decide (lastPort (fld dst 8 5) < fld dst 4 0)
  else bitOf dst 8 || !(isReg (fld dst 7 0))

/-- A move slot names unit 12 to 15 (R102). -/
def badUnit (w : Nat) : Bool := mvIsPort w && decide (12 ≤ mvUnit w)

/-- A move slot is an ILLEGAL_MOVE by its static fields (R101, R102, R104). -/
def badMove (ipf w : Nat) : Bool :=
  srcIllegal ipf (mvSrc w) || dstIllegal (mvDst w) || (mvW w == 1 && !(mvIsTrig w))

/-- The moves of a bundle, slot 0 first. -/
def Bundle.moves (b : Bundle) : List Nat :=
  [b.m0.toNat, b.m1.toNat, b.m2.toNat, b.m3.toNat, b.m4.toNat, b.m5.toNat]

/-- Two moves of the list break R117: two triggers to one unit, or two moves to one port. -/
def clash : List Nat → Bool
  | [] => false
  | w :: t =>
    t.any (fun x => mvIsPort w && mvIsPort x && mvUnit w == mvUnit x &&
      (mvPort w == mvPort x || (mvIsTrig w && mvIsTrig x))) || clash t

/-- The first slot, from `k` on, whose word satisfies `p`. -/
def firstSlot (p : Nat → Bool) : Nat → List Nat → Option Nat
  | _, [] => none
  | k, w :: t => if p w then some k else firstSlot p (k + 1) t

/-- Slot 6 breaks R112, R113 or the beat counts of R207 and R208 (R216 rows 1 and 2). -/
def matIllegal (w : Nat) : Bool :=
  let op := fld w 23 19
  if op = 0 then decide (w ≠ 0)
  else if op = 1 then decide (fld w 18 16 ≠ 0 ∨ fld w 11 0 ≠ 0)
  else if op = 2 ∨ op = 3 ∨ op = 4 ∨ op = 5 then false
  else if op = 6 ∨ op = 7 then decide (fld w 11 8 ≠ 0 ∨ fld w 7 0 < 15)
  else if op = 8 then decide (fld w 15 0 ≠ 0)
  else if op = 9 then decide (fld w 11 8 ≠ 0)
  else if op = 10 then decide (fld w 18 16 ≠ 0 ∨ fld w 7 0 ≠ 0)
  else true

/-- The immediate of an engine-slot word is malformed (R115). -/
def immIllegal (ipf w : Nat) : Bool :=
  if fld w 9 8 = 3 then decide (fld w 7 2 ≠ 0 ∨ poolEntries ipf ≤ fld w 1 0) else false

/-- The immediate of an engine-slot word (R115). -/
def engImm (ipf pool w : Nat) : Dw :=
  if fld w 9 8 = 3 then poolEntry ipf pool (fld w 1 0) else BitVec.ofNat 64 (fld w 9 0)

/-- Slot 7 breaks R114, R115, R116, R256 (its mode) or R261. -/
def engIllegal (ipf pool w : Nat) : Bool :=
  let op := fld w 23 19
  let ch := fld w 18 14
  let imm := (engImm ipf pool w).toNat
  if op = 0 then decide (w ≠ 0)
  else if immIllegal ipf w then true
  else if 1 ≤ op ∧ op ≤ 8 then decide (255 < imm)
  else if op = 9 ∨ op = 10 then false
  else if 11 ≤ op ∧ op ≤ 15 then
    (decide (imm - imm % 4 ≠ 0 ∧ imm - imm % 4 ≠ 128)) || (decide (imm / 128 = 1 ∧ ch ≠ 0)) ||
      (if op = 11 then imm % 4 == 0 else imm % 4 != 0)
  else if op = 16 ∨ op = 17 then decide (ch ≠ 0 ∨ 255 < imm)
  else if op = 18 then decide (ch ≠ 0 ∨ 3 < imm)
  else true

/-- The first failure of R119 steps 1 to 3, with its position (R120). -/
def staticFault (b : Bundle) : Option (Illegal × Nat) :=
  let h := b.hdr.toNat
  let ipf := hdrIPF h
  if h / 2 ^ 17 ≠ 0 then some (.illegalBundle, 8)
  else if ipf = 0 ∧ b.pool ≠ 0 then some (.illegalBundle, 9)
  else match firstSlot badUnit 0 b.moves with
  | some k => some (.illegalBundle, k)
  | none =>
    if clash b.moves then some (.illegalBundle, 10)
    else match firstSlot (badMove ipf) 0 b.moves with
    | some k => some (.illegalMove, k)
    | none =>
      if matIllegal b.mat.toNat then some (.scheduleFault, 6)
      else if engIllegal ipf b.pool.toNat b.eng.toNat then some (.scheduleFault, 7)
      else none

/-! ### Operations by port and op code -/

/-- The trigger ports of unit sx (R108). -/
def sxInstr (m : MoveHead) (u : BitVec 1) (p : Nat) : Option Instr :=
  match p with
  | 4 => some (.sxAdd m u)
  | 5 => some (.sxSub m u)
  | 6 => some (.sxAnd m u)
  | 7 => some (.sxOr m u)
  | 8 => some (.sxXor m u)
  | 9 => some (.sxShl m u)
  | 10 => some (.sxShr m u)
  | 11 => some (.sxSar m u)
  | 12 => some (.sxMin m u)
  | 13 => some (.sxMax m u)
  | 14 => some (.sxMinu m u)
  | 15 => some (.sxMaxu m u)
  | 16 => some (.sxCeq m u)
  | 17 => some (.sxCne m u)
  | 18 => some (.sxClt m u)
  | 19 => some (.sxCltu m u)
  | 20 => some (.sxCle m u)
  | 21 => some (.sxCleu m u)
  | 22 => some (.sxSel m u)
  | 23 => some (.sxClz m u)
  | 24 => some (.sxPopc m u)
  | 25 => some (.sxSext m u)
  | 26 => some (.sxAdds m u)
  | 27 => some (.sxBfx m u)
  | 28 => some (.sxBfi m u)
  | 29 => some (.sxPass m u)
  | 30 => some (.sxPack m u)
  | _ => none

/-- The trigger ports of unit sm (R108). -/
def smInstr (m : MoveHead) (p : Nat) : Option Instr :=
  match p with
  | 4 => some (.smMul m)
  | 5 => some (.smMulh m)
  | 6 => some (.smMulhu m)
  | 7 => some (.smMadd m)
  | 8 => some (.smDiv m)
  | 9 => some (.smDivu m)
  | 10 => some (.smRem m)
  | 11 => some (.smRemu m)
  | _ => none

/-- The trigger ports of unit ct (R108). -/
def ctInstr (m : MoveHead) (p : Nat) : Option Instr :=
  match p with
  | 4 => some (.jmp m)
  | 5 => some (.br m)
  | 6 => some (.bnz m)
  | 7 => some (.bz m)
  | 8 => some (.call m)
  | 9 => some (.ret m)
  | 10 => some (.loop m)
  | 11 => some (.mloop m)
  | 12 => some (.lbrk m)
  | 13 => some (.rept m)
  | 14 => some (.trap m)
  | 15 => some (.eret m)
  | 16 => some (.wait m)
  | 17 => some (.warm m)
  | 18 => some (.sysr m)
  | 19 => some (.sysw m)
  | 20 => some (.halt m)
  | _ => none

/-- The trigger ports of unit ls (R108). -/
def lsInstr (m : MoveHead) (p : Nat) : Option Instr :=
  match p with
  | 4 => some (.ldb m)
  | 5 => some (.ldbu m)
  | 6 => some (.ldh m)
  | 7 => some (.ldhu m)
  | 8 => some (.ldw m)
  | 9 => some (.ldwu m)
  | 10 => some (.ldd m)
  | 11 => some (.stb m)
  | 12 => some (.sth m)
  | 13 => some (.stw m)
  | 14 => some (.std m)
  | 15 => some (.fence m)
  | 16 => some (.pref m)
  | 17 => some (.wbl m)
  | 18 => some (.invl m)
  | _ => none

/-- The trigger ports of unit lv (R108). -/
def lvInstr (m : MoveHead) (p : Nat) : Option Instr :=
  match p with
  | 4 => some (.vld m)
  | 5 => some (.vst m)
  | 6 => some (.vlds m)
  | 7 => some (.vsts m)
  | 8 => some (.vgth m)
  | 9 => some (.vsct m)
  | 10 => some (.vldb m)
  | 11 => some (.vldm m)
  | 12 => some (.vstm m)
  | 13 => some (.vpref m)
  | _ => none

/-- The trigger ports of unit at (R108). -/
def atInstr (m : MoveHead) (p : Nat) : Option Instr :=
  match p with
  | 4 => some (.aadd m)
  | 5 => some (.aincb m)
  | 6 => some (.acas m)
  | 7 => some (.aswp m)
  | 8 => some (.aand m)
  | 9 => some (.aor m)
  | 10 => some (.axor m)
  | 11 => some (.amin m)
  | 12 => some (.amax m)
  | 13 => some (.aminu m)
  | 14 => some (.amaxu m)
  | 15 => some (.afadd m)
  | 16 => some (.afmin m)
  | 17 => some (.afmax m)
  | 18 => some (.apcas m)
  | 19 => some (.apld m)
  | _ => none

/-- The trigger ports of unit va (R108). -/
def vaInstr (m : MoveHead) (u : BitVec 1) (p : Nat) : Option Instr :=
  match p with
  | 4 => some (.vaAdd m u)
  | 5 => some (.vaSub m u)
  | 6 => some (.vaMul m u)
  | 7 => some (.vaFma m u)
  | 8 => some (.vaFms m u)
  | 9 => some (.vaMin m u)
  | 10 => some (.vaMax m u)
  | 11 => some (.vaAbs m u)
  | 12 => some (.vaNeg m u)
  | 13 => some (.vaCeq m u)
  | 14 => some (.vaClt m u)
  | 15 => some (.vaCle m u)
  | 16 => some (.vaCun m u)
  | 17 => some (.vaSel m u)
  | 18 => some (.vaCvt m u)
  | 19 => some (.vaAnd m u)
  | 20 => some (.vaOr m u)
  | 21 => some (.vaXor m u)
  | 22 => some (.vaShl m u)
  | 23 => some (.vaShr m u)
  | 24 => some (.vaSar m u)
  | 25 => some (.vaScl m u)
  | 26 => some (.vaClmp m u)
  | 27 => some (.vaRnd m u)
  | 28 => some (.vaQnt m u)
  | 29 => some (.vaDqn m u)
  | 30 => some (.vaMov m u)
  | _ => none

/-- The trigger ports of unit vf (R108). -/
def vfInstr (m : MoveHead) (p : Nat) : Option Instr :=
  match p with
  | 4 => some (.rsq m)
  | 5 => some (.rcp m)
  | 6 => some (.sqrt m)
  | 7 => some (.exp2 m)
  | 8 => some (.log2 m)
  | 9 => some (.exp m)
  | 10 => some (.tanh m)
  | 11 => some (.sigm m)
  | 12 => some (.silu m)
  | _ => none

/-- The trigger ports of unit vx (R108). -/
def vxInstr (m : MoveHead) (p : Nat) : Option Instr :=
  match p with
  | 4 => some (.rsum m)
  | 5 => some (.rmax m)
  | 6 => some (.rmin m)
  | 7 => some (.bcst m)
  | 8 => some (.perm m)
  | 9 => some (.gxch m)
  | 10 => some (.rot m)
  | 11 => some (.scan m)
  | 12 => some (.cmpr m)
  | 13 => some (.expd m)
  | 14 => some (.popm m)
  | 15 => some (.ffs m)
  | 16 => some (.vtos m)
  | 17 => some (.stov m)
  | _ => none

/-- The trigger ports of unit sa (R108). -/
def saInstr (m : MoveHead) (p : Nat) : Option Instr :=
  match p with
  | 4 => some (.sadd m)
  | 5 => some (.saddc m)
  | 6 => some (.srdn m)
  | 7 => some (.shdr m)
  | 8 => some (.sclr m)
  | 9 => some (.sevt m)
  | 10 => some (.sldr m)
  | 11 => some (.sstt m)
  | _ => none

/-- The operation of a trigger move: unit id, port, head (R108). -/
def trigInstr (u p : Nat) (m : MoveHead) : Option Instr :=
  match u with
  | 0 => sxInstr m 0 p
  | 1 => sxInstr m 1 p
  | 2 => smInstr m p
  | 3 => ctInstr m p
  | 4 => lsInstr m p
  | 5 => lvInstr m p
  | 6 => atInstr m p
  | 7 => vaInstr m 0 p
  | 8 => vaInstr m 1 p
  | 9 => vfInstr m p
  | 10 => vxInstr m p
  | 11 => saInstr m p
  | _ => none

/-- Unit id, port and head of a trigger instruction (R108, R161): the converse of `trigInstr`. -/
def trigOf : Instr → Option (Nat × Nat × MoveHead)
  | .sxAdd m u => some (0 + u.toNat, 4, m)
  | .sxSub m u => some (0 + u.toNat, 5, m)
  | .sxAnd m u => some (0 + u.toNat, 6, m)
  | .sxOr m u => some (0 + u.toNat, 7, m)
  | .sxXor m u => some (0 + u.toNat, 8, m)
  | .sxShl m u => some (0 + u.toNat, 9, m)
  | .sxShr m u => some (0 + u.toNat, 10, m)
  | .sxSar m u => some (0 + u.toNat, 11, m)
  | .sxMin m u => some (0 + u.toNat, 12, m)
  | .sxMax m u => some (0 + u.toNat, 13, m)
  | .sxMinu m u => some (0 + u.toNat, 14, m)
  | .sxMaxu m u => some (0 + u.toNat, 15, m)
  | .sxCeq m u => some (0 + u.toNat, 16, m)
  | .sxCne m u => some (0 + u.toNat, 17, m)
  | .sxClt m u => some (0 + u.toNat, 18, m)
  | .sxCltu m u => some (0 + u.toNat, 19, m)
  | .sxCle m u => some (0 + u.toNat, 20, m)
  | .sxCleu m u => some (0 + u.toNat, 21, m)
  | .sxSel m u => some (0 + u.toNat, 22, m)
  | .sxClz m u => some (0 + u.toNat, 23, m)
  | .sxPopc m u => some (0 + u.toNat, 24, m)
  | .sxSext m u => some (0 + u.toNat, 25, m)
  | .sxAdds m u => some (0 + u.toNat, 26, m)
  | .sxBfx m u => some (0 + u.toNat, 27, m)
  | .sxBfi m u => some (0 + u.toNat, 28, m)
  | .sxPass m u => some (0 + u.toNat, 29, m)
  | .sxPack m u => some (0 + u.toNat, 30, m)
  | .smMul m => some (2, 4, m)
  | .smMulh m => some (2, 5, m)
  | .smMulhu m => some (2, 6, m)
  | .smMadd m => some (2, 7, m)
  | .smDiv m => some (2, 8, m)
  | .smDivu m => some (2, 9, m)
  | .smRem m => some (2, 10, m)
  | .smRemu m => some (2, 11, m)
  | .jmp m => some (3, 4, m)
  | .br m => some (3, 5, m)
  | .bnz m => some (3, 6, m)
  | .bz m => some (3, 7, m)
  | .call m => some (3, 8, m)
  | .ret m => some (3, 9, m)
  | .loop m => some (3, 10, m)
  | .mloop m => some (3, 11, m)
  | .lbrk m => some (3, 12, m)
  | .rept m => some (3, 13, m)
  | .trap m => some (3, 14, m)
  | .eret m => some (3, 15, m)
  | .wait m => some (3, 16, m)
  | .warm m => some (3, 17, m)
  | .sysr m => some (3, 18, m)
  | .sysw m => some (3, 19, m)
  | .halt m => some (3, 20, m)
  | .ldb m => some (4, 4, m)
  | .ldbu m => some (4, 5, m)
  | .ldh m => some (4, 6, m)
  | .ldhu m => some (4, 7, m)
  | .ldw m => some (4, 8, m)
  | .ldwu m => some (4, 9, m)
  | .ldd m => some (4, 10, m)
  | .stb m => some (4, 11, m)
  | .sth m => some (4, 12, m)
  | .stw m => some (4, 13, m)
  | .std m => some (4, 14, m)
  | .fence m => some (4, 15, m)
  | .pref m => some (4, 16, m)
  | .wbl m => some (4, 17, m)
  | .invl m => some (4, 18, m)
  | .vld m => some (5, 4, m)
  | .vst m => some (5, 5, m)
  | .vlds m => some (5, 6, m)
  | .vsts m => some (5, 7, m)
  | .vgth m => some (5, 8, m)
  | .vsct m => some (5, 9, m)
  | .vldb m => some (5, 10, m)
  | .vldm m => some (5, 11, m)
  | .vstm m => some (5, 12, m)
  | .vpref m => some (5, 13, m)
  | .aadd m => some (6, 4, m)
  | .aincb m => some (6, 5, m)
  | .acas m => some (6, 6, m)
  | .aswp m => some (6, 7, m)
  | .aand m => some (6, 8, m)
  | .aor m => some (6, 9, m)
  | .axor m => some (6, 10, m)
  | .amin m => some (6, 11, m)
  | .amax m => some (6, 12, m)
  | .aminu m => some (6, 13, m)
  | .amaxu m => some (6, 14, m)
  | .afadd m => some (6, 15, m)
  | .afmin m => some (6, 16, m)
  | .afmax m => some (6, 17, m)
  | .apcas m => some (6, 18, m)
  | .apld m => some (6, 19, m)
  | .vaAdd m u => some (7 + u.toNat, 4, m)
  | .vaSub m u => some (7 + u.toNat, 5, m)
  | .vaMul m u => some (7 + u.toNat, 6, m)
  | .vaFma m u => some (7 + u.toNat, 7, m)
  | .vaFms m u => some (7 + u.toNat, 8, m)
  | .vaMin m u => some (7 + u.toNat, 9, m)
  | .vaMax m u => some (7 + u.toNat, 10, m)
  | .vaAbs m u => some (7 + u.toNat, 11, m)
  | .vaNeg m u => some (7 + u.toNat, 12, m)
  | .vaCeq m u => some (7 + u.toNat, 13, m)
  | .vaClt m u => some (7 + u.toNat, 14, m)
  | .vaCle m u => some (7 + u.toNat, 15, m)
  | .vaCun m u => some (7 + u.toNat, 16, m)
  | .vaSel m u => some (7 + u.toNat, 17, m)
  | .vaCvt m u => some (7 + u.toNat, 18, m)
  | .vaAnd m u => some (7 + u.toNat, 19, m)
  | .vaOr m u => some (7 + u.toNat, 20, m)
  | .vaXor m u => some (7 + u.toNat, 21, m)
  | .vaShl m u => some (7 + u.toNat, 22, m)
  | .vaShr m u => some (7 + u.toNat, 23, m)
  | .vaSar m u => some (7 + u.toNat, 24, m)
  | .vaScl m u => some (7 + u.toNat, 25, m)
  | .vaClmp m u => some (7 + u.toNat, 26, m)
  | .vaRnd m u => some (7 + u.toNat, 27, m)
  | .vaQnt m u => some (7 + u.toNat, 28, m)
  | .vaDqn m u => some (7 + u.toNat, 29, m)
  | .vaMov m u => some (7 + u.toNat, 30, m)
  | .rsq m => some (9, 4, m)
  | .rcp m => some (9, 5, m)
  | .sqrt m => some (9, 6, m)
  | .exp2 m => some (9, 7, m)
  | .log2 m => some (9, 8, m)
  | .exp m => some (9, 9, m)
  | .tanh m => some (9, 10, m)
  | .sigm m => some (9, 11, m)
  | .silu m => some (9, 12, m)
  | .rsum m => some (10, 4, m)
  | .rmax m => some (10, 5, m)
  | .rmin m => some (10, 6, m)
  | .bcst m => some (10, 7, m)
  | .perm m => some (10, 8, m)
  | .gxch m => some (10, 9, m)
  | .rot m => some (10, 10, m)
  | .scan m => some (10, 11, m)
  | .cmpr m => some (10, 12, m)
  | .expd m => some (10, 13, m)
  | .popm m => some (10, 14, m)
  | .ffs m => some (10, 15, m)
  | .vtos m => some (10, 16, m)
  | .stov m => some (10, 17, m)
  | .sadd m => some (11, 4, m)
  | .saddc m => some (11, 5, m)
  | .srdn m => some (11, 6, m)
  | .shdr m => some (11, 7, m)
  | .sclr m => some (11, 8, m)
  | .sevt m => some (11, 9, m)
  | .sldr m => some (11, 10, m)
  | .sstt m => some (11, 11, m)
  | _ => none

/-! ### Slot decoders -/

/-- The head of a trigger word. -/
def headOf (w : Nat) : MoveHead :=
  ⟨BitVec.ofNat 1 (mvW w), BitVec.ofNat 1 (mvInv w), BitVec.ofNat 2 (mvGrd w), BitVec.ofNat 10 (mvSrc w)⟩

/-- The head of a word that is no trigger. -/
def plainOf (w : Nat) : PlainHead :=
  ⟨BitVec.ofNat 1 (mvInv w), BitVec.ofNat 2 (mvGrd w), BitVec.ofNat 10 (mvSrc w)⟩

/-- Decode a move word (R100 to R104, R108), in a bundle of pool format `ipf`. -/
def decodeMove (ipf w : Nat) : Except Illegal Instr :=
  if badUnit w then .error .illegalBundle
  else if badMove ipf w then .error .illegalMove
  else if !(mvIsPort w) then .ok (.registerMove (plainOf w) (BitVec.ofNat 8 (fld w 7 0)))
  else
    let u := BitVec.ofNat 4 (mvUnit w)
    match mvPort w with
    | 0 => .ok (.portAWrite (plainOf w) u)
    | 1 => .ok (.portBWrite (plainOf w) u)
    | 2 => .ok (.portDOverride (plainOf w) u)
    | 3 => .ok (.portCfgWrite (plainOf w) u)
    | p =>
      match trigInstr (mvUnit w) p (headOf w) with
      | some i => .ok i
      | none => .error .illegalMove

/-- Decode a matrix-slot word (R112, R113). -/
def decodeMat (w : Nat) : Except Illegal Instr :=
  if matIllegal w then .error .scheduleFault
  else
    let t := BitVec.ofNat 3 (fld w 18 16)
    let a := BitVec.ofNat 4 (fld w 15 12)
    let b := BitVec.ofNat 4 (fld w 11 8)
    let n := BitVec.ofNat 8 (fld w 7 0)
    match fld w 23 19 with
    | 0 => .ok .matrixNop
    | 1 => .ok (.mcfg a)
    | 2 => .ok (.mma t a b n)
    | 3 => .ok (.mmaz t a b n)
    | 4 => .ok (.mmar t a b n)
    | 5 => .ok (.mmap t a b n)
    | 6 => .ok (.accrd t a n)
    | 7 => .ok (.accwr t a n)
    | 8 => .ok (.acccl t)
    | 9 => .ok (.pldef t a n)
    | 10 => .ok (.mmrk (BitVec.ofNat 8 (fld w 15 8)))
    | _ => .error .scheduleFault

/-- Decode an engine-slot word (R114 to R116), in a bundle of pool format `ipf` and pool `pool`. -/
def decodeEng (ipf pool w : Nat) : Except Illegal Instr :=
  if engIllegal ipf pool w then .error .scheduleFault
  else
    let c := BitVec.ofNat 5 (fld w 18 14)
    let a := BitVec.ofNat 4 (fld w 13 10)
    let i := BitVec.ofNat 10 (fld w 9 0)
    let k := BitVec.ofNat 1 (fld w 7 7)
    match fld w 23 19 with
    | 0 => .ok .engineNop
    | 1 => .ok (.cpy c a i)
    | 2 => .ok (.cpn c a i)
    | 3 => .ok (.cpz c a i)
    | 4 => .ok (.cpc c a i)
    | 5 => .ok (.cpk c a i)
    | 6 => .ok (.cpe c a i)
    | 7 => .ok (.send c a i)
    | 8 => .ok (.recv c a i)
    | 9 => .ok (.chw c a i)
    | 10 => .ok (.chi c a i)
    | 11 => .ok (.phr c a k (BitVec.ofNat 2 (fld w 1 0)))
    | 12 => .ok (.phd c a k)
    | 13 => .ok (.phs c a k)
    | 14 => .ok (.phb c a k)
    | 15 => .ok (.phw c a k)
    | 16 => .ok (.ple a i)
    | 17 => .ok (.plu a i)
    | 18 =>
      match fld w 1 0 with
      | 0 => .ok (.ckpStart a)
      | 1 => .ok (.ckpStop a)
      | 2 => .ok (.ckpQuiesce a)
      | _ => .ok (.ckpStatus a)
    | _ => .error .scheduleFault

/-! ### Encoders -/

/-- The move word of a trigger (R100, R102). -/
def encodeTrig (u p : Nat) (m : MoveHead) : Nat :=
  m.w.toNat * 2 ^ 23 + m.inv.toNat * 2 ^ 22 + m.grd.toNat * 2 ^ 20 + m.src.toNat * 2 ^ 10 + 2 ^ 9 + u * 2 ^ 5 + p

/-- The move word of a move that is no trigger. -/
def encodePlain (m : PlainHead) (dst : Nat) : Nat :=
  m.inv.toNat * 2 ^ 22 + m.grd.toNat * 2 ^ 20 + m.src.toNat * 2 ^ 10 + dst

/-- The move-slot word of an instruction, if it is a move. -/
def encodeMove (i : Instr) : Option Nat :=
  match i with
  | .registerMove m d => some (encodePlain m d.toNat)
  | .portAWrite m u => some (encodePlain m (2 ^ 9 + u.toNat * 2 ^ 5))
  | .portBWrite m u => some (encodePlain m (2 ^ 9 + u.toNat * 2 ^ 5 + 1))
  | .portDOverride m u => some (encodePlain m (2 ^ 9 + u.toNat * 2 ^ 5 + 2))
  | .portCfgWrite m u => some (encodePlain m (2 ^ 9 + u.toNat * 2 ^ 5 + 3))
  | i => (trigOf i).map (fun t => encodeTrig t.1 t.2.1 t.2.2)

/-- A matrix-slot word from its fields (R112, R113). -/
def matWord (op t a b n : Nat) : Nat := op * 2 ^ 19 + t * 2 ^ 16 + a * 2 ^ 12 + b * 2 ^ 8 + n

/-- The matrix-slot word of an instruction, if it is a matrix-slot operation. -/
def encodeMat (i : Instr) : Option Nat :=
  match i with
  | .matrixNop => some 0
  | .mcfg a => some (matWord 1 0 a.toNat 0 0)
  | .mma t a b n => some (matWord 2 t.toNat a.toNat b.toNat n.toNat)
  | .mmaz t a b n => some (matWord 3 t.toNat a.toNat b.toNat n.toNat)
  | .mmar t a b n => some (matWord 4 t.toNat a.toNat b.toNat n.toNat)
  | .mmap t a d n => some (matWord 5 t.toNat a.toNat d.toNat n.toNat)
  | .accrd t a n => some (matWord 6 t.toNat a.toNat 0 n.toNat)
  | .accwr t a n => some (matWord 7 t.toNat a.toNat 0 n.toNat)
  | .acccl t => some (matWord 8 t.toNat 0 0 0)
  | .pldef p a n => some (matWord 9 p.toNat a.toNat 0 n.toNat)
  | .mmrk g => some (10 * 2 ^ 19 + g.toNat * 2 ^ 8)
  | _ => none

/-- An engine-slot word from its fields (R114, R116). -/
def engWord (op c a i : Nat) : Nat := op * 2 ^ 19 + c * 2 ^ 14 + a * 2 ^ 10 + i

/-- The engine-slot word of an instruction, if it is an engine-slot operation. -/
def encodeEng (i : Instr) : Option Nat :=
  match i with
  | .engineNop => some 0
  | .cpy c a i => some (engWord 1 c.toNat a.toNat i.toNat)
  | .cpn c a i => some (engWord 2 c.toNat a.toNat i.toNat)
  | .cpz c a i => some (engWord 3 c.toNat a.toNat i.toNat)
  | .cpc c a i => some (engWord 4 c.toNat a.toNat i.toNat)
  | .cpk c a i => some (engWord 5 c.toNat a.toNat i.toNat)
  | .cpe c a i => some (engWord 6 c.toNat a.toNat i.toNat)
  | .send c a i => some (engWord 7 c.toNat a.toNat i.toNat)
  | .recv c a i => some (engWord 8 c.toNat a.toNat i.toNat)
  | .chw c a i => some (engWord 9 c.toNat a.toNat i.toNat)
  | .chi c a i => some (engWord 10 c.toNat a.toNat i.toNat)
  | .phr p a k m => some (engWord 11 p.toNat a.toNat (k.toNat * 128 + m.toNat))
  | .phd p a k => some (engWord 12 p.toNat a.toNat (k.toNat * 128))
  | .phs p a k => some (engWord 13 p.toNat a.toNat (k.toNat * 128))
  | .phb p a k => some (engWord 14 p.toNat a.toNat (k.toNat * 128))
  | .phw p a k => some (engWord 15 p.toNat a.toNat (k.toNat * 128))
  | .ple a i => some (engWord 16 0 a.toNat i.toNat)
  | .plu a i => some (engWord 17 0 a.toNat i.toNat)
  | .ckpStart a => some (engWord 18 0 a.toNat 0)
  | .ckpStop a => some (engWord 18 0 a.toNat 1)
  | .ckpQuiesce a => some (engWord 18 0 a.toNat 2)
  | .ckpStatus a => some (engWord 18 0 a.toNat 3)
  | _ => none

/-- The bundle that holds one move word and nothing else. -/
def oneMove (w : Nat) : Bundle := { m0 := BitVec.ofNat 24 w }
/-- The bundle that holds one matrix-slot word and nothing else. -/
def oneMat (w : Nat) : Bundle := { mat := BitVec.ofNat 24 w }
/-- The bundle that holds one engine-slot word and nothing else. -/
def oneEng (w : Nat) : Bundle := { eng := BitVec.ofNat 24 w }

/-- The bundle an instruction stands for, if it has an encoding. -/
def bundleOf (i : Instr) : Option Bundle :=
  match i with
  | .bundleIssue b => some b
  | i =>
    match encodeMove i with
    | some w => some (oneMove w)
    | none =>
      match encodeMat i with
      | some w => some (oneMat w)
      | none => (encodeEng i).map oneEng

/-! ### Bytes (R7, R96) -/

/-- `n` bytes of a number, least significant first. -/
def bytesOf : Nat → Nat → List Byte
  | 0, _ => []
  | n + 1, x => BitVec.ofNat 8 x :: bytesOf n (x / 256)

/-- The number whose bytes are the list, least significant first. -/
def natOfBytes : List Byte → Nat
  | [] => 0
  | b :: t => b.toNat + 256 * natOfBytes t

/-- The 256 bits of a bundle as a number (R96). -/
def Bundle.toNat (b : Bundle) : Nat :=
  b.hdr.toNat + 2 ^ 32 * (b.m0.toNat + 2 ^ 24 * (b.m1.toNat + 2 ^ 24 * (b.m2.toNat + 2 ^ 24 * (b.m3.toNat + 2 ^ 24 *
    (b.m4.toNat + 2 ^ 24 * (b.m5.toNat + 2 ^ 24 * (b.mat.toNat + 2 ^ 24 * (b.eng.toNat + 2 ^ 24 * b.pool.toNat))))))))

/-- The bundle of a 256-bit number (R96). -/
def Bundle.ofNat (x : Nat) : Bundle :=
  { hdr := BitVec.ofNat 32 x, m0 := BitVec.ofNat 24 (x / 2 ^ 32), m1 := BitVec.ofNat 24 (x / 2 ^ 56)
    m2 := BitVec.ofNat 24 (x / 2 ^ 80), m3 := BitVec.ofNat 24 (x / 2 ^ 104), m4 := BitVec.ofNat 24 (x / 2 ^ 128)
    m5 := BitVec.ofNat 24 (x / 2 ^ 152), mat := BitVec.ofNat 24 (x / 2 ^ 176), eng := BitVec.ofNat 24 (x / 2 ^ 200)
    pool := BitVec.ofNat 32 (x / 2 ^ 224) }

/-- The instruction a bundle stands for: a bundle with a zero header, a zero pool and exactly one non-zero slot, which is
legal, is that slot's instruction; every other bundle is itself. -/
def instrOfBundle (b : Bundle) : Instr :=
  if b = oneMove b.m0.toNat ∧ b.m0 ≠ 0 then
    match decodeMove 0 b.m0.toNat with
    | .ok i => i
    | .error _ => .bundleIssue b
  else if b = oneMat b.mat.toNat ∧ b.mat ≠ 0 then
    match decodeMat b.mat.toNat with
    | .ok i => i
    | .error _ => .bundleIssue b
  else if b = oneEng b.eng.toNat ∧ b.eng ≠ 0 then
    match decodeEng 0 0 b.eng.toNat with
    | .ok i => i
    | .error _ => .bundleIssue b
  else .bundleIssue b

/-- Why bytes do not decode: there are fewer than the 32 bytes of a bundle. An illegal encoding is no such reason: the core
issues it and takes its trap (R119). -/
inductive DecodeError where
  | tooShort
deriving DecidableEq, Repr

/-- Decode the instruction at the head of a list of bytes, and the rest of the list. -/
def decode (bs : List Byte) : Except DecodeError (Instr × List Byte) :=
  if bs.length < 32 then .error .tooShort
  else .ok (instrOfBundle (Bundle.ofNat (natOfBytes (bs.take 32))), bs.drop 32)

/-- The 32 bytes of an instruction that has an encoding (R96). -/
def encode (i : Instr) : Option (List Byte) := (bundleOf i).map (fun b => bytesOf 32 b.toNat)

/-! ### One table word -/

/-- The bundle that holds a word of spec/opcode_table.json. The table does not say which slot a word stands in, and the same
24 bits mean different things in different slots: a word with bit 9 set and a legal move is a move; otherwise a word whose
bits [23:19] name a matrix operation it is legal for, then one that is legal in the engine slot, stands there; any other word
is a move (log entry 6). -/
def tableBundle (w : Nat) : Bundle :=
  if mvIsPort w ∧ (decodeMove 0 w).toOption.isSome then oneMove w
  else if fld w 23 19 ≠ 0 ∧ !(matIllegal w) then oneMat w
  else if fld w 23 19 ≠ 0 ∧ !(engIllegal 0 0 w) then oneEng w
  else oneMove w

/-- The instruction of a word of the opcode table, as the decoder reads the 32 bytes of its bundle. A word of more than 24
bits, the width of every encoded row, has none. -/
def decodeTableWord (nbits w : Nat) : Option Instr :=
  if 24 < nbits ∨ 2 ^ 24 ≤ w then none
  else
    let b := tableBundle w
    if b = oneMove 0 then some (.registerMove ⟨0, 0, 0⟩ 0)
    else match decode (bytesOf 32 b.toNat) with
    | .ok (.bundleIssue _, _) => none
    | .ok (i, _) => some i
    | .error _ => none

end Sys2Proof
end

