-- ==== Sys2Proof/Machine/Flags.lean ====
section
/-! DEFINITION. Numbers to the bit (R65 to R95): the formats, exact values, the one rounding of every result and the flags it
raises, and stochastic rounding. -/

namespace Sys2Proof.Machine

/-! ### Flags (R84, R85) -/

/-- The five flags of FPFLAGS. -/
abbrev Flags := BitVec 5

def fNV : Flags := 16
def fDZ : Flags := 8
def fOF : Flags := 4
def fUF : Flags := 2
def fNX : Flags := 1

/-! ### Formats (R65, R72) -/

/-- Format codes of R72. -/
abbrev Fmt := Nat

def FP32 : Fmt := 0
def FP16 : Fmt := 1
def BF16 : Fmt := 2
def E5M2 : Fmt := 3
def E4M3 : Fmt := 4
def E2M1 : Fmt := 5
def INT8 : Fmt := 6
def UINT8 : Fmt := 7
def INT16 : Fmt := 8
def UINT16 : Fmt := 9
def INT32 : Fmt := 10
def UINT32 : Fmt := 11
def E8M0 : Fmt := 12

/-- Width in bits of a format's codes (R157). -/
def fmtWidth (f : Fmt) : Nat :=
  if f = 0 ∨ f = 10 ∨ f = 11 then 32
  else if f = 1 ∨ f = 2 ∨ f = 8 ∨ f = 9 then 16
  else if f = 5 then 4 else 8

/-- The formats with an exponent and a significand (R65). -/
def isFloat (f : Fmt) : Bool := f ≤ 5

/-- The integer formats (R69). -/
def isInt (f : Fmt) : Bool := 6 ≤ f && f ≤ 11

/-- The signed integer formats. -/
def isSignedInt (f : Fmt) : Bool := f == 6 || f == 8 || f == 10

/-- Bits of the exponent field and of the fraction field, and the bias (R65). -/
def expBits (f : Fmt) : Nat :=
  match f with
  | 0 => 8 | 1 => 5 | 2 => 8 | 3 => 5 | 4 => 4 | _ => 2
def manBits (f : Fmt) : Nat :=
  match f with
  | 0 => 23 | 1 => 10 | 2 => 7 | 3 => 2 | 4 => 3 | _ => 1
def fmtBias (f : Fmt) : Nat :=
  match f with
  | 0 => 127 | 1 => 15 | 2 => 127 | 3 => 15 | 4 => 7 | _ => 1

/-- MAXF(f) (R65) as k × 2^e: the pair (k, e). -/
def maxFinite (f : Fmt) : Nat × Int :=
  match f with
  | 0 => (0xFFFFFF, 104) | 1 => (0x7FF, 5) | 2 => (0xFF, 120)
  | 3 => (7, 13) | 4 => (14, 5) | _ => (3, 1)

/-- The code of +MAXF(f) (R65). -/
def maxCode (f : Fmt) : Nat :=
  match f with
  | 0 => 0x7F7FFFFF | 1 => 0x7BFF | 2 => 0x7F7F | 3 => 0x7B | 4 => 0x7E | _ => 0x7

/-- QNAN(f) (R66). E2M1 and the integers have no NaN and take 0 (R78). -/
def qnan (f : Fmt) : Nat :=
  match f with
  | 0 => 0x7FC00000 | 1 => 0x7E00 | 2 => 0x7FC0 | 3 => 0x7E | 4 => 0x7F | 12 => 0xFF | _ => 0

/-- The code of +∞ in the formats that have one (R66). -/
def infCode (f : Fmt) : Nat :=
  match f with
  | 0 => 0x7F800000 | 1 => 0x7C00 | 2 => 0x7F80 | _ => 0x7C

/-- The sign bit of a float code, in place. -/
def signCode (f : Fmt) (neg : Bool) : Nat := if neg then 2 ^ (fmtWidth f - 1) else 0

/-! ### Exact values (R93) -/

/-- An exact value: a NaN (signalling or not), an infinity, a signed zero, or the non-zero rational ±num/den. -/
inductive Ex where
  | nan (sig : Bool)
  | inf (neg : Bool)
  | zero (neg : Bool)
  | fin (neg : Bool) (num den : Nat)
deriving DecidableEq, Repr

/-- The exact value ±num/den, a zero when num is 0. -/
def Ex.mk (neg : Bool) (num den : Nat) : Ex := if num = 0 then .zero neg else .fin neg num den

/-- The exact value of an integer. -/
def Ex.ofInt (i : Int) : Ex := if i = 0 then .zero false else .fin (decide (i < 0)) i.natAbs 1

/-- The exact value ±k × 2^e. -/
def Ex.dyadic (neg : Bool) (k : Nat) (e : Int) : Ex :=
  if 0 ≤ e then Ex.mk neg (k * 2 ^ e.toNat) 1 else Ex.mk neg k (2 ^ (-e).toNat)

def Ex.isNaN : Ex → Bool
  | .nan _ => true
  | _ => false

def Ex.isSig : Ex → Bool
  | .nan s => s
  | _ => false

def Ex.isInf : Ex → Bool
  | .inf _ => true
  | _ => false

def Ex.isZero : Ex → Bool
  | .zero _ => true
  | _ => false

def Ex.neg : Ex → Bool
  | .inf n => n
  | .zero n => n
  | .fin n _ _ => n
  | .nan _ => false

def Ex.negate : Ex → Ex
  | .inf n => .inf (!n)
  | .zero n => .zero (!n)
  | .fin n a b => .fin (!n) a b
  | .nan s => .nan s

def Ex.abs : Ex → Ex
  | .inf _ => .inf false
  | .zero _ => .zero false
  | .fin _ a b => .fin false a b
  | .nan s => .nan s

/-- The finite value as a signed numerator over its denominator. -/
def Ex.frac : Ex → Int × Nat
  | .fin n a b => (if n then -(a : Int) else (a : Int), b)
  | _ => (0, 1)

/-- Numeric order of two values that are no NaN: −∞ below every number, −0 equal to +0. -/
def Ex.lt : Ex → Ex → Bool
  | .inf true, .inf true => false
  | .inf true, _ => true
  | _, .inf true => false
  | .inf false, _ => false
  | _, .inf false => true
  | x, y => decide (x.frac.1 * (y.frac.2 : Int) < y.frac.1 * (x.frac.2 : Int))

/-- Numeric equality of two values that are no NaN. -/
def Ex.eq (x y : Ex) : Bool := !(x.lt y) && !(y.lt x)

/-- VAL(c, f) of R95, with REMAP and XVAL for E2M1 (R67). -/
def valFloat (f : Fmt) (c : Nat) : Ex :=
  let mb := manBits f
  let e := c / 2 ^ mb % 2 ^ expBits f
  let m := c % 2 ^ mb
  let n := bitOf c (fmtWidth f - 1)
  let top := 2 ^ expBits f - 1
  if f = 4 ∧ e = top ∧ m = 7 then .nan false
  else if (f ≤ 3) ∧ e = top then
    if m = 0 then .inf n else .nan (!(bitOf m (mb - 1)))
  else if e = 0 then Ex.dyadic n m (1 - (fmtBias f : Int) - mb)
  else Ex.dyadic n (2 ^ mb + m) ((e : Int) - fmtBias f - mb)

/-- VAL(c, f) for every format of R72. -/
def val (f : Fmt) (remap : Bool) (xval : Nat) (c : Nat) : Ex :=
  if f = 12 then (if c % 256 = 255 then .nan false else Ex.dyadic false 1 ((c % 256 : Nat) - 127 : Int))
  else if f = 5 ∧ c % 16 = 8 then (if remap then valFloat 1 xval else .zero true)
  else if isInt f then
    (if isSignedInt f then Ex.ofInt (toSigned (fmtWidth f) c) else Ex.ofInt ((c % 2 ^ fmtWidth f : Nat) : Int))
  else valFloat f (c % 2 ^ fmtWidth f)

/-- VAL without a remap. -/
def valp (f : Fmt) (c : Nat) : Ex := val f false 0 c

/-! ### Exact arithmetic -/

/-- NV when some operand is a signalling NaN (R78). -/
def sigFlag (xs : List Ex) : Flags := if xs.any Ex.isSig then fNV else 0

/-- The exact product; 0 × ∞ is a NaN and invalid. -/
def exMul (a b : Ex) : Ex × Flags :=
  match a, b with
  | .nan _, _ => (.nan false, 0)
  | _, .nan _ => (.nan false, 0)
  | .inf x, .inf y => (.inf (x != y), 0)
  | .inf _, .zero _ => (.nan false, fNV)
  | .zero _, .inf _ => (.nan false, fNV)
  | .inf x, .fin y _ _ => (.inf (x != y), 0)
  | .fin x _ _, .inf y => (.inf (x != y), 0)
  | .zero x, .zero y => (.zero (x != y), 0)
  | .zero x, .fin y _ _ => (.zero (x != y), 0)
  | .fin x _ _, .zero y => (.zero (x != y), 0)
  | .fin x p q, .fin y r s => (.fin (x != y) (p * r) (q * s), 0)

/-- The exact sum; ∞ − ∞ is a NaN and invalid. `rdn` chooses −0 for an exact zero of opposite signs (R75), and
the same for a sum of two zeros of opposite signs, of which R75 and R165 say nothing (DESIGN CHOICE, log entry 84). -/
def exAdd (rdn : Bool) (a b : Ex) : Ex × Flags :=
  match a, b with
  | .nan _, _ => (.nan false, 0)
  | _, .nan _ => (.nan false, 0)
  | .inf x, .inf y => if x = y then (.inf x, 0) else (.nan false, fNV)
  | .inf x, _ => (.inf x, 0)
  | _, .inf y => (.inf y, 0)
  | .zero x, .zero y => (.zero (if x = y then x else rdn), 0)
  | .zero _, y => (y, 0)
  | x, .zero _ => (x, 0)
  | .fin x p q, .fin y r s =>
    let n : Int := (if x then -((p * s : Nat) : Int) else ((p * s : Nat) : Int)) + (if y then -((r * q : Nat) : Int) else ((r * q : Nat) : Int))
    if n = 0 then (.zero rdn, 0) else (.fin (decide (n < 0)) n.natAbs (q * s), 0)

/-- The exact value times 2^k. -/
def exScale (a : Ex) (k : Int) : Ex :=
  match a with
  | .fin n p q => if 0 ≤ k then .fin n (p * 2 ^ k.toNat) q else .fin n p (q * 2 ^ (-k).toNat)
  | x => x

/-! ### Rounding (R75 to R78) -/

/-- Rounding modes of R72: 0 RNE, 1 RTZ, 2 RUP, 3 RDN, 4 RST. -/
abbrev RMode := Nat

/-- floor(log2(num/den)) for num, den > 0. -/
def floorLog2 (num den : Nat) : Int :=
  let e : Int := (Nat.log2 num : Int) - Nat.log2 den
  let ge : Bool := if 0 ≤ e then decide (den * 2 ^ e.toNat ≤ num) else decide (den ≤ num * 2 ^ (-e).toNat)
  if ge then e else e - 1

/-- num/den divided by 2^e, as a fraction. -/
def divPow (num den : Nat) (e : Int) : Nat × Nat :=
  if 0 ≤ e then (num, den * 2 ^ e.toNat) else (num * 2 ^ (-e).toNat, den)

/-- The integer that num/den rounds to in magnitude under mode m (R75), and whether it is inexact. `hash` is RSTBITS of the
element's lane. -/
def roundMag (m : RMode) (hash : Nat) (neg : Bool) (num den : Nat) : Nat × Bool :=
  let q := num / den
  let r := num % den
  if r = 0 then (q, false)
  else
    let up : Bool :=
      match m with
      | 0 => decide (den < 2 * r) || (decide (2 * r = den) && q % 2 == 1)
      | 1 => false
      | 2 => !neg
      | 3 => neg
      | _ =>
        if neg then !(decide (hash < (den - r) * 2 ^ 32 / den)) else decide (hash < r * 2 ^ 32 / den)
    (if up then q + 1 else q, true)

/-- The exponent of the last place of the grid of format f at num/den (R75). -/
def ulpExp (f : Fmt) (num den : Nat) : Int :=
  let low : Int := 1 - (fmtBias f : Int) - manBits f
  let e := floorLog2 num den - manBits f
  if e < low then low else e

/-- Whether k × 2^e exceeds MAXF(f). -/
def overMax (f : Fmt) (k : Nat) (e : Int) : Bool :=
  let mx := maxFinite f
  let d := e - mx.2
  if 0 ≤ d then decide (mx.1 < k * 2 ^ d.toNat) else decide (mx.1 * 2 ^ (-d).toNat < k)

/-- The code of ±k × 2^e, for k below or equal to 2^p and e on the grid of f. −0 of E2M1 follows R75. -/
def encodeMag (f : Fmt) (remap neg : Bool) (k : Nat) (e : Int) : Nat :=
  let mb := manBits f
  let ke : Nat × Int := if k = 2 ^ (mb + 1) then (2 ^ mb, e + 1) else (k, e)
  if ke.1 = 0 then (if f = 5 ∧ remap then 0 else signCode f neg)
  else if ke.1 < 2 ^ mb then signCode f neg + ke.1
  else signCode f neg + ((ke.2 + mb + fmtBias f).toNat) * 2 ^ mb + (ke.1 - 2 ^ mb)

/-- A signed zero of format f. -/
def zeroCode (f : Fmt) (remap neg : Bool) : Nat := encodeMag f remap neg 0 0

/-- What an overflow of format f delivers (R76). -/
def overflowCode (f : Fmt) (m : RMode) (sat neg : Bool) : Nat :=
  if f = 5 ∨ sat ∨ m = 1 ∨ (m = 2 ∧ neg) ∨ (m = 3 ∧ !neg) then signCode f neg + maxCode f
  else if f = 4 then qnan 4 else signCode f neg + infCode f

/-- The least and greatest integers of an integer format. -/
def intMin (f : Fmt) : Int := if isSignedInt f then -(2 ^ (fmtWidth f - 1) : Nat) else 0
def intMax (f : Fmt) : Int :=
  if isSignedInt f then ((2 ^ (fmtWidth f - 1) : Nat) : Int) - 1 else ((2 ^ fmtWidth f : Nat) : Int) - 1

/-- RND of a finite non-zero value to a floating-point format, with its flags (R75 to R77). -/
def rndFloat (f : Fmt) (m : RMode) (sat remap : Bool) (hash : Nat) (neg : Bool) (num den : Nat) : Nat × Flags :=
  let e := ulpExp f num den
  let nd := divPow num den e
  let q := roundMag m hash neg nd.1 nd.2
  if overMax f q.1 e then (overflowCode f m sat neg, fOF ||| fNX)
  else
    -- tininess after rounding with an unbounded exponent range (R77)
    let e' := floorLog2 num den - manBits f
    let nd' := divPow num den e'
    let q' := roundMag m hash neg nd'.1 nd'.2
    let minNorm : Int := 1 - (fmtBias f : Int)
    let tiny : Bool := decide (floorLog2 q'.1 1 + e' < minNorm)
    (encodeMag f remap neg q.1 e, (if q.2 then fNX else 0) ||| (if q.2 && tiny then fUF else 0))

/-- RND of a finite non-zero value to an integer format (R75, R76). -/
def rndInt (f : Fmt) (m : RMode) (hash : Nat) (neg : Bool) (num den : Nat) : Nat × Flags :=
  let q := roundMag m hash neg num den
  let i : Int := if neg then -(q.1 : Int) else (q.1 : Int)
  if i < intMin f then (wrapInt (fmtWidth f) (intMin f), fNV)
  else if intMax f < i then (wrapInt (fmtWidth f) (intMax f), fNV)
  else (wrapInt (fmtWidth f) i, if q.2 then fNX else 0)

/-- TOE8M0 (R88): no flag but NV for a signalling NaN. -/
def toE8M0 (v : Ex) : Nat × Flags :=
  match v with
  | .nan s => (0xFF, if s then fNV else 0)
  | .inf _ => (0xFF, 0)
  | .zero _ => (0, 0)
  | .fin _ p q =>
    let k := floorLog2 p q + 127
    (if k < 0 then 0 else if 254 < k then 254 else k.toNat, 0)

/-- RND(v, f, m, sat, k) of R95 and the flags it raises (R76 to R78). `arith` says that an infinite exact result is delivered
as that infinity whatever SAT holds (R165). An infinite source under SAT 1 gives ±MAXF with OF and NX, as R76's table has it, also in
the conversions that R87 says never set them (DESIGN CHOICE, log entry 83). -/
def rnd (f : Fmt) (m : RMode) (sat remap arith : Bool) (hash : Nat) (v : Ex) : Nat × Flags :=
  if f = 12 then toE8M0 v
  else match v with
  | .nan s =>
    if f = 5 ∨ isInt f then (0, fNV) else (qnan f, if s then fNV else 0)
  | .inf n =>
    if isInt f then (wrapInt (fmtWidth f) (if n then intMin f else intMax f), fNV)
    else if f = 5 then (signCode f n + maxCode f, fOF ||| fNX)
    else if f = 4 then (if sat then (signCode f n + maxCode f, fOF ||| fNX) else (qnan 4, fNV))
    else if sat && !arith then (signCode f n + maxCode f, fOF ||| fNX)
    else (signCode f n + infCode f, 0)
  | .zero n => if isInt f then (0, 0) else (zeroCode f remap n, 0)
  | .fin n p q => if isInt f then rndInt f m hash n p q else rndFloat f m sat remap hash n p q

/-- RNE(v, f) of R95. -/
def rne (f : Fmt) (v : Ex) : Nat × Flags := rnd f 0 false false false 0 v

/-- RNE32(v), as a code. -/
def rne32 (v : Ex) : Nat := (rne 0 v).1

/-- RNE32(v), as the exact value of its code. -/
def rne32v (v : Ex) : Ex := valFloat 0 (rne32 v)

/-! ### Q16.24 (R70, R95) -/

/-- SAT40. -/
def sat40 (n : Int) : Int :=
  if n < -(2 ^ 39 : Nat) then -(2 ^ 39 : Nat) else if ((2 ^ 39 : Nat) : Int) - 1 < n then ((2 ^ 39 : Nat) : Int) - 1 else n

/-- Q16(v): the Q16.24 integer, and the indications sat and nan. -/
def q16 (v : Ex) : Int × Bool × Bool :=
  match v with
  | .nan _ => (0, false, true)
  | .inf n => (if n then -(2 ^ 39 : Nat) else ((2 ^ 39 : Nat) : Int) - 1, true, false)
  | .zero _ => (0, false, false)
  | .fin n p q =>
    let r := roundMag 0 0 n (p * 2 ^ 24) q
    let i : Int := if n then -(r.1 : Int) else (r.1 : Int)
    (sat40 i, decide (sat40 i ≠ i), false)

/-- The exact value of q × 2^−k. -/
def exFixed (i : Int) (k : Nat) : Ex := if i = 0 then .zero false else .fin (decide (i < 0)) i.natAbs (2 ^ k)

/-! ### Stochastic rounding (R79) -/

/-- ROTL32 (R95). -/
def rotl32 (x n : Nat) : Nat := (x * 2 ^ n + x / 2 ^ (32 - n)) % 2 ^ 32

/-- One round of the hash of R79. -/
def rstRound (xy : Nat × Nat) : Nat × Nat :=
  let x := (xy.1 + xy.2) % 2 ^ 32
  let x := (x ^^^ (x / 2 ^ 15)) * 0x2C1B3C6D % 2 ^ 32
  (x, rotl32 xy.2 11 ^^^ x)

/-- RSTBITS(seed, ctx, lane, ctr) of R79. -/
def rstBits (seed ctx lane ctr : Nat) : Nat :=
  let x := (seed % 2 ^ 32) ^^^ (ctr % 2 ^ 32)
  let y := (seed / 2 ^ 32 % 2 ^ 32) ^^^ ((ctr / 2 ^ 32 % 2 ^ 16) ||| (lane * 2 ^ 16)) ^^^ (ctx * 2 ^ 30 % 2 ^ 32)
  let r := rstRound (rstRound (rstRound (rstRound (x, y))))
  r.1 ^^^ (r.1 / 2 ^ 16)

/-- PLDEC(w, sc, f) of R95: a decoded Plesal weight. -/
def plDec (w : Ex) (sc : Nat) (f : Fmt) : Nat := (rnd f 0 true false false 0 (exMul w (valFloat 1 sc)).1).1

end Sys2Proof.Machine
end

