-- ==== Sys2Proof/Machine/State.lean ====
section
/-! DEFINITION. The state of one FW960 device as plain data: contexts, cores, twin pairs, clusters, dies, memory, launches,
transfers and phasers, and the state right after reset. -/

namespace Sys2Proof.Machine

/-- Why a step stops the model. No meaning of this model stops: the manual gives every illegal or failing case a trap, a
status or a drop, and those are next states. The one constructor stays unused (safe). -/
inductive Fault where
  /-- Raised by no meaning (safe: it never occurs). -/
  | neverRaised
deriving DecidableEq, Repr

/-- Why a step has no meaning in the model. -/
inductive Refusal where
  /-- An arm of exec whose instruction has no meaning yet (safe: nothing is proved of it). -/
  | notModelled (mnemonic : String)
deriving DecidableEq, Repr

/-! ### Values, registers and contexts -/

/-- A value of one of the four classes S, V, M and G (R105). -/
inductive Val where
  | s (x : Dw)
  | v (x : Vec)
  | m (x : Mask)
  | g (x : BitVec 1)
deriving DecidableEq, Repr

/-- A bypass latch (R28): the last result of its unit, and the poisoned address when the result is marked (R410). -/
structure Latch where
  val : Val := .s 0
  mark : Option Dw := none
deriving DecidableEq, Repr

/-- The four ports of one unit (R108, R109): a and b (class S in the low 64 bits), cfg, and a pending d override (R110). -/
structure UnitPorts where
  a : Vec := 0
  b : Vec := 0
  cfg : Dw := 0
  d : Option Byte := none
deriving DecidableEq, Repr

/-- One register bank (R29, R106). s0, m0 and g0 are hard-wired (R102) and never listed. `marks` holds, for each identifier
whose value is marked poisoned (R410), the poisoned address. -/
structure Bank where
  s : Sp Dw := []
  v : Sp Vec := []
  m : Sp Mask := []
  a : Sp Dw := []
  g : Sp (BitVec 1) := []
  marks : Sp Dw := []
deriving DecidableEq, Repr

/-- A result in flight (R32), or an entry of the shadow result buffer (R51): the bundle in which it is due, the bundle and
unit that triggered it, the register and latch it goes to, its value and poison mark, the flags it raises (R84), BOUND of
ATSTAT (R232), whether its data has arrived (R35) and whether it raises PROMOTE_LOST (R235). -/
structure Flight where
  due : Nat
  born : Nat
  unit : Nat
  /-- The slot of a plain move (R118). -/
  slot : Nat := 0
  dest : Option Byte := none
  latch : Bool := true
  val : Option Val := none
  mark : Option Dw := none
  flags : BitVec 5 := 0
  bound : Bool := false
  arrived : Bool := true
  /-- The home does not answer: a lost die's stack, or a suspended device (R423, R434). -/
  dead : Bool := false
  lost : Bool := false
  /-- The result of the promote-acquire of this number, which waits for its acknowledgement (R281). -/
  promo : Option Nat := none
deriving DecidableEq, Repr

/-- Bytes of a store that go to one place in one way: write-through or uncached (R398), to registers of region 10 (R388), under
what retention hint (R222) and key id (R399), and the place and value of the leaf's entry that holds A and D (R403). Addresses are
physical in space 0, offsets otherwise. -/
structure StorePart where
  bytes : List (Nat × Byte) := []
  through : Bool := false
  unc : Bool := false
  reg : Bool := false
  hint : Nat := 0
  key : Option Nat := none
  leaf : Option (Nat × Nat) := none
deriving DecidableEq, Repr

/-- One store as it leaves (or will leave) the core: its space, the core whose scratchpad it writes, its parts in ascending element
order, and the scope of its release if it is one. -/
structure StoreAcc where
  space : Nat
  core : Nat := 0
  parts : List StorePart := []
  rel : Option Nat := none
  /-- The storing context. -/
  ctx : Nat := 0
  /-- It stores to a further core of the space-2 store that stands before it (R136). -/
  more : Bool := false
deriving DecidableEq, Repr

/-- A counted loop level (R130). `order` rises with every loop started (R133). -/
structure Level where
  active : Bool := false
  start : Dw := 0
  count : Nat := 0
  order : Nat := 0
deriving DecidableEq, Repr

/-- The modulo loop (R134 to R137): N of this run and M of the first run, K, S, STS, RB, the carried set, the address of the
prologue, the bundles issued in this run, B (the first iteration of this run), the snapshots and the held stores. -/
structure Modulo where
  active : Bool := false
  start : Dw := 0
  n : Nat := 0
  mAbs : Nat := 0
  k : Nat := 1
  st : Nat := 1
  sts : Nat := 0
  rb : Bool := false
  carried : List Byte := []
  issued : Nat := 0
  base : Nat := 0
  order : Nat := 0
  snaps : List (Nat × List (Byte × Val × Option Dw)) := []
  held : List (Nat × StoreAcc) := []
  /-- A rollback has restarted this loop (R137). -/
  again : Bool := false
  /-- Its mloop bundle has not ended: the stores of that bundle belong to no iteration (R135, R136). -/
  fresh : Bool := false
deriving DecidableEq, Repr

/-- The loop unit of a context (R29). -/
structure LoopUnit where
  l0 : Level := {}
  l1 : Level := {}
  l2 : Level := {}
  ml : Modulo := {}
  next : Nat := 0
  /-- The pass number MLITER reads when no modulo loop is active (R135). -/
  lastPass : Nat := 0
deriving DecidableEq, Repr

/-- A pending repeat prefix (R139). -/
structure Rept where
  r : Nat
  sA : Dw
  sB : Dw
deriving DecidableEq, Repr

/-- What trap entry sets aside and eret restores (R147, R149). -/
structure Saved where
  loops : LoopUnit := {}
  rept : Option Rept := none
  recM : Option (Nat × Nat) := none
  recE : Option (Nat × Nat) := none
  count : Nat := 0
  hi : List Dw := []
  hiMarks : List (Option Dw) := []
  part2 : Bool := false
  needM : Nat := 0
  needE : Nat := 0
  flight : List Flight := []
deriving DecidableEq, Repr

/-- The per-context system registers of R152 that are plain words. -/
structure CtxSys where
  rstSeed : Dw := 0
  rstCtr : BitVec 48 := 0
  fp : BitVec 5 := 0
  tcause : Dw := 0
  tepc : Dw := 0
  taddr : Dw := 0
  titer : Dw := 0
  tpend0 : Dw := 0
  tpend1 : Dw := 0
  uhvec : Dw := 0
  uhmask : Dw := 0
  uivec : Dw := 0
  bound : Bool := false
  pderr : Dw := 0
  phsel : Dw := 0
  xfstat : Dw := 0
deriving DecidableEq, Repr

/-- The place of a context in the work hierarchy (R107): its indexes. -/
structure Indexes where
  ctx : Nat := 0
  cg : Nat := 0
  clu : Nat := 0
  sg : Nat := 0
  dev : Nat := 0
deriving DecidableEq, Repr

/-- How a context stands: not used, able to issue, blocked and switched out (R50), or ended (R143, R148). -/
inductive CtxPhase where
  | off
  | ready
  | blocked
  | ended
deriving DecidableEq, Repr

/-- One hardware context (R29). -/
structure Ctx where
  phase : CtxPhase := .off
  launch : Nat := 0
  pc : Dw := 0
  /-- Pending branch targets (R38): bundles still to issue before the target, and the target. -/
  pend : List (Nat × Dw) := []
  bank : Bank := {}
  ports : Sp UnitPorts := []
  loops : LoopUnit := {}
  rept : Option Rept := none
  count : Nat := 0
  /-- The dispatch records of R42 for the matrix and the engine queue: bundle and declared beats. -/
  recM : Option (Nat × Nat) := none
  recE : Option (Nat × Nat) := none
  /-- The bundle at the program counter has already dispatched its slots 6 and 7 (R40). -/
  part2 : Bool := false
  /-- The number of entries that must have left the matrix and the engine queue before the bundle's moves go on (R40). -/
  needM : Nat := 0
  needE : Nat := 0
  /-- The blocked bundle waits for a token (R49). -/
  waits : Bool := false
  /-- Settling interval (R59): the previous request, and the bundles left in the interval. -/
  setPrev : Nat := 0
  setLen : Nat := 0
  flight : List Flight := []
  shadow : List Flight := []
  tokens : Nat := 0
  ovf : Bool := false
  /-- The number of promote-acquires of this context that have waited (R281). -/
  asked : Nat := 0
  sys : CtxSys := {}
  inh : Bool := false
  uih : Bool := false
  saved : Option Saved := none
  /-- Channels whose USER_INTERRUPT is pending (R253), and pending PHASER_OVERRUN traps (R341). -/
  uip : List Nat := []
  overruns : Nat := 0
  mcfg : Dw := 0xF022
  /-- Marks dispatched and fired, by tag (R210). -/
  tagD : Sp Nat := []
  tagF : Sp Nat := []
  /-- Armed channel values (R253). -/
  chi : Sp Nat := []
  ix : Indexes := {}
  priv : Bool := false
deriving DecidableEq, Repr

/-! ### Cores -/

/-- A wake comparator (R140). -/
structure Comp where
  owner : Option Nat := none
  base : Nat := 0
  len : Nat := 0
  thr : Nat := 1
  count : Nat := 0
deriving DecidableEq, Repr

/-- An L1 line (R263, R271, R277): its bytes, which of them are held, which are dirty, its generation and hint, the poison mark of
each of its four granules (R409), and the release tags of its dirty bytes, by offset: physical core and generation (R280). -/
structure L1Line where
  data : BitVec 1024 := 0
  valid : BitVec 128 := 0
  dirty : BitVec 128 := 0
  gen : Nat := 0
  hint : Nat := 0
  marks : BitVec 4 := 0
  tags : Sp (Nat × Nat) := []
deriving DecidableEq, Repr

/-- One entry of the promotion log (R277). -/
structure LogEnt where
  gen : Nat
  scope : Nat
  ctx : Nat
  line : Option Nat
deriving DecidableEq, Repr

/-- A promote-acquire that waits (R281): the context, the core it asked and the generation, the value it read and that value's
poison mark, the time of the request (R282), and the operation to finish. -/
structure Promo where
  ctx : Nat
  /-- Its number among the context's. -/
  no : Nat
  target : Nat
  gen : Nat
  va : Nat
  pa : Nat
  width : Nat
  /-- The leaf that maps the location, and where its A and D are kept (R403). -/
  entry : Dw
  ad : Nat
  cas : Bool
  cmp : Dw
  new : Dw
  rel : Option Nat
  old : Nat := 0
  mark : Option Dw := none
  since : Nat := 0
deriving DecidableEq, Repr

/-- Why a core is frozen (R35). `data` is the lateness of a global result, `fetch` a bundle-fetch miss, `grant` the energy
grant, `logFull` a full promotion log (R279) or a line that a drain still has to write back (R278), `xinv` a full invalidation queue (R406), `stackWait` a stack that is not
ready (R438), `stop` the stop of bundle issue that begins a pre-emption (R381), `promise` a promote-acquire of the context that waits for its
acknowledgement (R281; DEDUCED, log entry 123). (DESIGN CHOICE, log entry 52.) -/
inductive Freeze where
  | data
  | fetch
  | grant
  | logFull
  | xinv
  | stackWait
  | stop
  | promise
deriving DecidableEq, Repr

/-- A byte of another core's scratchpad that an operation of the array has read ahead of its beat (R212): the core, the offset, the byte,
and whether it was poisoned. -/
structure Kept where
  core : Nat
  off : Nat
  byte : Byte
  mark : Bool
deriving DecidableEq, Repr

/-- An entry of the matrix queue: the dispatching context and bundle address, the slot's fields, the register values read at
dispatch, the repeat prefix, the matrix configuration in force, its declared beats, and for mmrk the dispatched count. -/
structure MEnt where
  ctx : Nat
  op : Nat
  /-- The cycle in which its bundle issued (R211). -/
  cyc : Nat := 0
  tile : Nat := 0
  ra : Dw := 0
  rb : Dw := 0
  beats : Nat := 1
  rept : Option Rept := none
  cfg : Dw := 0
  tag : Nat := 0
  mark : Nat := 0
  /-- The bytes of other cores' scratchpads that it reads: the core, the offset and the number. -/
  panels : List (Nat × Nat × Nat) := []
  /-- Bytes of its remote panels that it has read ahead of its beats (R212). -/
  kept : List Kept := []
deriving DecidableEq, Repr

/-- The state of one column of an mmap in progress (R294 to R296): the segment it is in, the weight it decodes next, and
whether the column has met a malformed segment. -/
structure ColState where
  seg : Nat := 0
  /-- The header of the segment, as the operation has read it (R305). -/
  hdr : Nat := 0
  w : Nat := 0
  dead : Bool := false
  begun : Bool := false
  slot : Nat := 0
deriving DecidableEq, Repr

/-- The matrix operation that occupies the array (R211, R219): its entry, the next beat and repetition, the columns of an
mmap, and whether it waits for remote rows (R214). -/
structure MRun where
  ent : MEnt
  beat : Nat := 0
  rep : Nat := 0
  cols : List ColState := []
  desc : List Dw := []
  /-- The profile slots this mmap has copied (R205): slot and its record's dwords. -/
  profs : List (Nat × Option (List Dw)) := []
  /-- The words of strips that this repetition has read, each at one instant (R305), by offset. -/
  words : Sp Nat := []
  bad : Bool := false
  /-- Repetitions whose descriptor has been read. -/
  descs : Nat := 0
  waits : Bool := false
  poison : Option Dw := none
deriving DecidableEq, Repr

/-- An entry of the engine queue (R245): the dispatching context, the operation, channel or phaser, the register read at
dispatch, the immediate, the declared beats, the identifier its channel gave it, and for cpe the count its tag held. -/
structure EEnt where
  ctx : Nat
  op : Nat
  /-- The cycle in which its bundle issued (R41). -/
  cyc : Nat := 0
  ch : Nat := 0
  ra : Dw := 0
  imm : Dw := 0
  beats : Nat := 1
  id : Nat := 0
  tagCount : Nat := 0
  /-- The command has already counted its lenient-mode stall (R246). -/
  stalled : Bool := false
deriving DecidableEq, Repr

/-- A channel bound to a copy engine (R246, R374): the engine, the next identifier, the identifiers not yet complete, and the
counts of CHSTAT. -/
structure Chan where
  engine : Nat := 0
  next : Nat := 0
  open_ : List Nat := []
  errs : Nat := 0
  stalls : Nat := 0
deriving DecidableEq, Repr

/-- A stream accumulator row (R238, R307): its header word, validity, flags, elements (Q16.24 integers), T and S. -/
structure SaRow where
  header : Dw := 0
  valid : Bool := false
  satf : Bool := false
  nanf : Bool := false
  err : Bool := false
  elems : Sp Int := []
  t : Int := 0
  sq : Nat := 0
  /-- The segment is poisoned (R320). -/
  poison : Bool := false
deriving DecidableEq, Repr

/-- What the upper twin of a tidelocked group holds of its own (R45): its scratchpad, tiles and stream accumulator rows with their
poison, and its array's operation as it has read it. -/
structure TwinStore where
  tiles : Sp (BitVec 8192) := []
  tileMarks : Sp (BitVec 16) := []
  scratch : Sp Byte := []
  scratchPoison : List Nat := []
  sa : Sp SaRow := []
  mrun : Option MRun := none
deriving DecidableEq, Repr

/-- One physical core (R2, R29). -/
structure Core where
  ctxs : Sp Ctx := []
  /-- The context that issues. -/
  run : Option Nat := none
  latches : Sp Latch := []
  /-- Accumulator tiles: 256 elements of 32 bits, element (i, j) at index 16i + j; marked rows of each tile (R410). -/
  tiles : Sp (BitVec 8192) := []
  tileMarks : Sp (BitVec 16) := []
  mq : List MEnt := []
  eq : List EEnt := []
  mrun : Option MRun := none
  /-- mmrk marks passed by the queue that have not fired yet (R210): context, tag and count. -/
  marks : List (Nat × Nat × Nat) := []
  /-- Entries that have issued from the matrix and from the engine queue so far (R40). -/
  mIss : Nat := 0
  eIss : Nat := 0
  /-- First window (an even cycle) at which the next operation of the matrix and of the engine queue may issue (R41), and the
  next window of the operation in the array (R43). -/
  mfree : Nat := 0
  efree : Nat := 0
  mwin : Nat := 0
  scratch : Sp Byte := []
  scratchPoison : List Nat := []
  l1 : Sp L1Line := []
  gen : Nat := 1
  drained : Nat := 0
  log : List LogEnt := []
  reqsAcked : Nat := 0
  ovfd : Nat := 0
  drain : Option Nat := none
  preqs : List (Nat × Nat) := []
  promos : List Promo := []
  sa : Sp SaRow := []
  comps : Sp Comp := []
  chans : Sp Chan := []
  /-- Cycles not spent in a freeze other than a blocked-bundle stall (R36, R43). -/
  now : Nat := 0
  /-- The cycle at which bundle issue last stopped for a blocked bundle, a switch or an ended context (R36, R51). -/
  idle : Nat := 0
  /-- The context that left the core last (R376). -/
  last : Nat := 0
  frozen : Option Freeze := none
  stalled : Bool := false
  /-- Operating-point request (R59). -/
  req : Nat := 0
  replay : Nat := 0
  sconf : Nat := 0
  /-- The collisions of R33 that the core has had so far, without a limit; and, in the upper twin of a tidelocked group, those that the
  lower twin had had when its own SCONF was last as it stands (R44). -/
  confs : Nat := 0
  confAt : Nat := 0
  /-- In the lower twin of a tidelocked group: what the upper twin holds of its own (R45). -/
  twin : Option TwinStore := none
  /-- The grant has held a bundle of this core into the current period, which issues whatever the sum is (R54). -/
  granted : Bool := false
  launch : Option Nat := none
  logical : Nat := 0
  /-- The kernel-end release of its core group has been made (R143, R369). -/
  groupDone : Bool := false
  /-- OWNER and L1SZ of the core's previous launch (R375). -/
  prevOwner : Option Byte := none
  l1sz : Nat := 0
deriving DecidableEq, Repr

/-! ### Pairs, clusters and dies -/

/-- A Plesal decoder profile slot (R204 to R206): the record's four dwords, the core (physical key) whose pldef wrote it, and
the OWNER of that core's launch. -/
structure PSlot where
  record : List Dw := []
  /-- pldef accepted the record (R204). -/
  valid : Bool := true
  writer : Nat := 0
  owner : Byte := 0
deriving DecidableEq, Repr

/-- A twin pair (R44 to R61, R205). -/
structure Pair where
  mode : BitVec 2 := 0
  grantEn : Bool := false
  grant : BitVec 16 := 0
  sum : Nat := 0
  /-- The charge of a bundle's upper twin that the grant has put off to the next period (R44, R54). -/
  carry : Nat := 0
  /-- The array row whose place the spare row has taken (R2, R438). -/
  spareRow : Option Nat := none
  /-- No bundle has issued in the current grant period. -/
  fresh : Bool := true
  stalls : Nat := 0
  cur : Nat := 0
  /-- The point the pair is moving to (R59). -/
  moving : Option Nat := none
  /-- The cycle at which that move ends, on the count of the pair's core that has issued for longer. -/
  moveEnd : Nat := 0
  ceil : Nat := 3
  /-- The value supervisor software last wrote (R427). -/
  ceilSet : Nat := 3
  slots : Sp PSlot := []
  dtab : Sp (BitVec 16) := []
deriving DecidableEq, Repr

/-- Membership of one context in a phaser (R337): its core, context, mode, J, NS, NW, and a pending departure (R257). -/
structure Member where
  core : Nat
  ctx : Nat
  mode : Nat
  j : Nat
  ns : Nat
  nw : Nat
  leaving : Bool := false
deriving DecidableEq, Repr

/-- A phaser (R337). The owner is the member listed as such: core and context. -/
structure Phaser where
  phase : Nat := 0
  pend0 : Nat := 0
  pend1 : Nat := 0
  overrun : Nat := 0
  owner : Option (Nat × Nat) := none
  members : List Member := []
deriving DecidableEq, Repr

/-- A command of the cluster's Plesal encoder (R258): the issuing core and context, ple or plu, and its parameter block. -/
structure EncCmd where
  core : Nat
  ctx : Nat
  update : Bool
  block : List Dw
  /-- The microsecond of its arrival (R303). -/
  since : Nat := 0
deriving DecidableEq, Repr

/-- The state of the test controller (R155). -/
inductive TestState where
  | idle
  | draining
  | held
  | running
  | pass
  | fail
  | aborted
deriving DecidableEq, Repr

/-- The configuration image's core-map record of one cluster (R437).
(DESIGN CHOICE, log entry 18; DESIGN CHOICE, log entry 73.) -/
structure ImageRec where
  lo : Dw := 0x5A928398A418820
  hi : Dw := 0x7B9AC
  pcstate : Dw := 0x1_0000_0000
  seq : Nat := 0
deriving DecidableEq, Repr

/-- A configuration image of the module flash (R437, R438): whether its signature checks, its core-map records by cluster and the
clusters whose record CRC does not check, and its parts for the array rows, the HBM and the links, in words of their own. -/
structure Image where
  signed : Bool := true
  recs : Sp ImageRec := []
  badCrc : List Nat := []
  /-- By pair, the array row that the spare row replaces. -/
  rows : Sp Nat := []
  /-- By stack, and by link: repair data and tuning data. -/
  hbm : Sp Dw := []
  links : Sp Dw := []
deriving DecidableEq, Repr

/-- One cluster: core map, test controller, phasers and encoder. -/
structure Cluster where
  cmapLo : Dw := 0x5A928398A418820
  cmapHi : Dw := 0x7B9AC
  pcstate : Dw := 0x1_0000_0000
  abortPri : Nat := 0
  ctlCore : Nat := 0
  tstate : TestState := .idle
  tcore : Nat := 0
  terr : Bool := false
  elapsed : Nat := 0
  /-- Time at which the pattern started, and the PCSTATE of the core before HOLD. -/
  tstart : Nat := 0
  before : Nat := 0
  sig : Dw := 0
  exp : Dw := 0
  runs : Nat := 0
  /-- A repair record waits for the management firmware (R156). -/
  repair : Bool := false
  phasers : Sp Phaser := []
  enc : List EncCmd := []
  /-- What the encoder's running command has still to write, write by write: the core and the cells (R303 to R305). -/
  encOut : List (Nat × List (Nat × Byte)) := []
deriving DecidableEq, Repr

/-- A supply island (R425 to R428). -/
structure Island where
  sag : Bool := false
  oc : Bool := false
  /-- The microsecond in which the excess of current began, or in which a launch was last killed for it (R426). -/
  ocAt : Nat := 0
  /-- In soft trip: it came to 95 °C and has not been below 90 °C since. -/
  soft : Bool := false
  /-- At or above 95 °C, and at or above 105 °C. -/
  hot : Bool := false
  hard : Bool := false
  /-- Below 90 °C after a soft trip, with CEIL still to rise. -/
  recovering : Bool := false
  /-- The microsecond in which the island last came to 95 °C, or fell below 90 °C, or of the last step of CEIL since (R427). -/
  turnAt : Nat := 0
deriving DecidableEq, Repr

/-- What the launch processor keeps of one queue beside its descriptor: the packet it waits for is a barrier, its stall
(R360), and how many of its packets have not completed. -/
structure QState where
  /-- The notified write index that was accepted last (R360, R361). -/
  widx : Nat := 0
  barrier : Option Nat := none
  stalled : Bool := false
  /-- Packets of the queue that have not completed, oldest first (R368): launch numbers. -/
  open_ : List Nat := []
deriving DecidableEq, Repr

/-- One compute die. -/
structure Die where
  /-- The queue descriptor table (R359): dword i of queue q at 8q + i. -/
  qdesc : Sp Dw := []
  /-- Notify registers (R361). -/
  notify : Sp Dw := []
  qstate : Sp QState := []
  ringBase : Dw := 0
  quantum : Dw := 0x0064_0064_0064_0000
  div : Nat := 0
  ue : Nat := 0
  ce : Nat := 0
  sags : Nat := 0
  kills : Nat := 0
  islands : Sp Island := []
  beat : Nat := 0
  lost : BitVec 4 := 0
  /-- Heartbeats heard since the last check, and consecutive misses, by sending die (R422). -/
  heard : BitVec 4 := 0
  misses : Sp Nat := []
  fenced : Bool := false
  stopped : Bool := false
  ready : BitVec 39 := 0
  /-- HBM repair data of its stacks and tuning data of its links, as applied at bring-up (R438). -/
  repairs : Sp Dw := []
  tuning : Sp Dw := []
  phasers : Sp Phaser := []
deriving DecidableEq, Repr

/-! ### Launches, transfers and the device -/

/-- One core group of a placed launch (R372): the core (physical key), its logical number, cluster key, and indexes. -/
structure Group where
  core : Nat
  logical : Nat
  clu : Nat
  ix : Indexes := {}
  /-- The upper twin of a tidelocked group (R373). -/
  twin : Option Nat := none
deriving DecidableEq, Repr

/-- How a packet stands. -/
inductive LaunchPhase where
  | waiting
  | running
  /-- Bundle issue has stopped for a pre-emption that waits for pending values (R381). -/
  | stopping
  | preempted
  | done
deriving DecidableEq, Repr

/-- A packet taken from a queue (R363 to R365). -/
structure Launch where
  die : Nat := 0
  q : Nat := 0
  packet : List Dw := []
  barrier : Bool := false
  /-- The launch places no group (R371). -/
  empty : Bool := false
  /-- OWNER, PTROOT, PRIV and DEVMASK of its queue, as read with the packet. -/
  owner : Byte := 0
  root : Nat := 0
  priv : Bool := false
  devmask : Nat := 0
  scratch : Nat := 0
  cls : Nat := 0
  energy : Nat := 0
  phase : LaunchPhase := .waiting
  groups : List Group := []
  status : Nat := 0
  /-- When it was last pre-empted, in the order of arrival (R377): the packets with a lower number had arrived. -/
  heldNo : Nat := 0
  /-- Number of pre-emptions (R382), and the core images saved by the last one. -/
  seq : Nat := 0
  saved : List (Nat × Core) := []
  placedAt : Nat := 0
  /-- Its place in the order of placement. -/
  placedNo : Nat := 0
  /-- The launch has lost a die, so no signal is written (R423). -/
  noSignal : Bool := false
  /-- The quantum of its class has run out (R377). -/
  expired : Bool := false
  /-- Its save records: the offset of the first in the queue's save region, and their bytes (R382). -/
  saveAt : Nat := 0
  saveLen : Nat := 0
  /-- Profile slots and decode table entries saved with each core group (R206). -/
  savedSlots : List (Nat × Sp PSlot × Sp (BitVec 16)) := []
  /-- Other devices whose share has not completed, and the device and launch that forwarded this share here (R386). -/
  shares : List Nat := []
  origin : Option (Nat × Nat) := none
deriving DecidableEq, Repr

/-- How a transfer stands: queued in its channel, running, written out (completion follows), or waiting (recv). -/
inductive XPhase where
  | queued
  | running
  | written
  | done
deriving DecidableEq, Repr

/-- Bytes that a transfer has still to write from a physical address on, with their poison marks and the leaf that maps them. -/
structure TailPart where
  addr : Nat
  entry : Nat
  /-- Where the leaf's A and D are kept (R403). -/
  ad : Nat
  bytes : List (Byte × Bool)
deriving DecidableEq, Repr

/-- A transfer of a copy engine (R247, R249 to R255, R322 to R333). -/
structure Xfer where
  core : Nat
  ctx : Nat
  launch : Nat
  ch : Nat
  id : Nat
  op : Nat
  owner : Byte := 0
  root : Nat := 0
  priv : Bool := false
  /-- Descriptor or parameter block, and the offset it was read at. -/
  desc : List Dw := []
  doff : Nat := 0
  phase : XPhase := .queued
  /-- Next logical byte; total logical bytes. -/
  pos : Nat := 0
  len : Nat := 0
  fault : Nat := 0
  foff : Nat := 0
  bad : Nat := 0
  /-- A block header was broken: every later chunk is bad (R333). Source offset of the next block; destination offset (cpc). -/
  broken : Bool := false
  srcOff : Nat := 0
  dstOff : Nat := 0
  /-- Phaser key and phase bound (R340). -/
  bind : Option (Nat × Nat) := none
  /-- cpe: tag and the count it waits for (R252). -/
  tag : Nat := 0
  tagCount : Nat := 0
  /-- send and recv: STATUS and first dword of the status record (R255). -/
  status : Nat := 0
  msgLen : Nat := 0
  msgDie : Nat := 0
  /-- The record's own offset is bad: no record is written (R250, R255). -/
  noRecord : Bool := false
  /-- The last bytes of the chunks done so far, in an aligned piece of global memory that the next chunk may go on with (R323). -/
  tail : List TailPart := []
deriving DecidableEq, Repr

/-- Element steps of a remote sadd or saddc on their way (R309): the adding core and context, the target segment, the first
element, and the Q16.24 addends with their saturation and NaN indications. -/
structure SaStep where
  core : Nat
  row : Nat
  elem : Nat
  add : Int
  sat : Bool
  nan : Bool
  /-- The addend came from a poisoned tile row (R240). -/
  poison : Bool := false
  src : Nat
deriving DecidableEq, Repr

/-- A line in the L2 slices of the device (R1, R263, R444), with the poison marks of its granules (R409). -/
structure L2Line where
  data : BitVec 1024 := 0
  dirty : BitVec 128 := 0
  marks : BitVec 4 := 0
deriving DecidableEq, Repr

/-- The checkpoint streamer (R417 to R419). -/
structure Ckp where
  active : Bool := false
  vbase : Nat := 0
  vlen : Nat := 0
  tbase : Nat := 0
  root : Nat := 0
  owner : Byte := 0
  pass : Nat := 0
  sent : Nat := 0
  pos : Nat := 0
  stop : Bool := false
  /-- QUIESCEs that wait (R418): core and offset of their status record, and their final pass. -/
  quies : List (Nat × Nat × Nat) := []
  /-- A START that waits for the current page (R417): core, OWNER, PTROOT and its block. -/
  next : Option (Nat × Byte × Nat × List Dw) := none
  /-- QUIESCEs of the range that waits. -/
  nextQ : List (Nat × Nat) := []
  lastPass : Nat := 0
  lastSent : Nat := 0
  /-- Core and offset of the status record. -/
  stsCore : Nat := 0
  sts : Nat := 0
  /-- Pages, or parts of them, whose D was cleared but that were not sent (R419): PTROOT, virtual address and size. -/
  owed : List (Nat × Nat × Nat) := []
deriving DecidableEq, Repr

/-- An invalidation queued by XINV (R406). -/
inductive Xinv where
  | all
  | owner (o : Byte)
  | page (o : Byte) (vpn : Nat)
deriving DecidableEq, Repr

/-- A cached translation (R405): the cache (core or cluster), the OWNER that walked, the virtual page base and size, the
entry's value, its level, and its physical address. -/
structure Tlb where
  core : Nat
  owner : Byte
  va : Nat
  size : Nat
  entry : Dw
  lvl : Nat
  ea : Nat
deriving DecidableEq, Repr

/-- A table entry held in a cluster's walk cache (R405): the cluster, the OWNER that walked, the level, the virtual address bits
that led to it, the entry and its physical address. -/
structure WalkEnt where
  clu : Nat
  owner : Byte
  lvl : Nat
  pre : Nat
  entry : Dw
  ea : Nat
deriving DecidableEq, Repr

/-- The scratch section of a code object, as the loader has recorded it (R25, R366): the PTROOT and OWNER of the address space and
the entry it belongs to, and the virtual address and number of its bytes. -/
structure Section where
  root : Nat
  owner : Byte
  entry : Nat
  place : Nat
  len : Nat
deriving DecidableEq, Repr

/-- The suspension state (R431). -/
inductive SuspState where
  | running
  | suspending
  | suspended
  | resuming
deriving DecidableEq, Repr

/-- One item of the schedule: which transition moves next. Plain data, so that every interleaving of the agents, and every
input of the outside world, is some value of the state. (DESIGN CHOICE, log entry 71; DESIGN CHOICE, log entry 72.) -/
inductive Agenda where
  /-- The transition of `i`. -/
  | instr (i : Instr)
  /-- The next bundle is issued by this core. -/
  | focus (core : Nat)
  /-- A line leaves a core's L1, or the L2, by replacement, written back if dirty (R222, R271). -/
  | evict (core line : Nat)
  | l2Evict (line : Nat)
  /-- Time passes, in microseconds. -/
  | tick (us : Nat)
  /-- The next bundle of this core fails its timing check (R62), or its tidelocked twins disagree (R46). -/
  | replay (core : Nat)
  | diverge (core : Nat)
  /-- The bundle cache of this core misses at the next fetch (R35). -/
  | fetchMiss (core : Nat)
  /-- What comes about by the clock: a heartbeat, its check (R422), the poll of a barrier (R365), a page of the checkpoint streamer,
  a kill while an excess of current lasts (R426), a step of CEIL (R427). -/
  | beat (die : Nat)
  | check (die : Nat)
  | poll (die q : Nat)
  | page
  | powerKill (die : Nat)
  | ceilDown (die isl : Nat)
  | ceilUp (die isl : Nat)
  /-- An island cools below 95 °C, or below 105 °C (R427, R430). -/
  | coolSoft (die isl : Nat)
  | coolHard (die isl : Nat)
  /-- The loader records a scratch section (R25). -/
  | load (x : Section)
  /-- A configuration image of the flash is replaced from outside (R438). -/
  | flash (slot : Nat) (i : Image)
  /-- The host sets the enable and the function mask of MSI-X, or the size of BAR 2 (R388, R391). -/
  | msixCap (en mask : Bool)
  | bar2 (size : Nat)
  /-- A message with this sequence number arrives at an Orbit port (R432, R435). -/
  | orbit (port seq : Nat) (m : OrbitMsg)
deriving DecidableEq, Repr

/-- One FW960 device. -/
structure State where
  /-- Home memory by physical address: HBM of the device, and what lies behind its links (R393). Canonical: strictly rising
  addresses, no zero byte listed. -/
  mem : List Host.Cell := []
  /-- Poisoned 32-byte granules of home memory (R409), strictly rising. -/
  poison : List Nat := []
  /-- Release tags (R280) of the bytes as their homes hold them, by address: physical core and generation. -/
  tags : Sp (Nat × Nat) := []
  l2 : Sp L2Line := []
  tlb : List Tlb := []
  walks : List WalkEnt := []
  xinvs : List Xinv := []
  /-- Installed memory-encryption keys (R399). -/
  keys : BitVec 64 := BitVec.allOnes 64
  /-- The key id under which each physical page of 4 KiB was last written (R399). -/
  pageKeys : Sp Nat := []
  cores : Sp Core := []
  pairs : Sp Pair := []
  clusters : Sp Cluster := []
  dies : Sp Die := []
  launches : Sp Launch := []
  /-- The scratch sections that the loader has recorded (R25, R366). -/
  sections : List Section := []
  nextLaunch : Nat := 0
  /-- The number of placements so far. -/
  nextPlace : Nat := 0
  xfers : Sp Xfer := []
  nextXfer : Nat := 0
  saSteps : List SaStep := []
  /-- Space-2 stores on their way to another core (R272). -/
  s2 : List (Nat × StoreAcc) := []
  ckp : Ckp := {}
  fotab : Dw := 0
  susp : SuspState := .running
  suspBase : Nat := 0
  suspDomain : Bool := false
  /-- A hard trip is in force: no queue is read (R428). -/
  hardTrip : Bool := false
  /-- The microsecond in which it began (R429). -/
  hardAt : Nat := 0
  /-- The compute dies have lost power (R429). -/
  powerOff : Bool := false
  /-- The service die has booted and loaded an image (R438). -/
  booted : Bool := false
  /-- The two configuration images of the module flash (R438), and the image that the service die has loaded. -/
  flash : Sp Image := []
  image : Option Image := none
  /-- The devices that belong to the domain of this device (R402 step 3): bit d for device d, set up outside the device. -/
  domain : BitVec 64 := 1
  /-- Devices of the domain that are suspended (R434). -/
  peersSuspended : BitVec 64 := 0
  /-- MSI-X vectors sent, latest first (R391); the value of the host's last read. -/
  msix : List Nat := []
  /-- The MSI-X table, dword by dword, the pending bits (R388, R391), and enable and function mask of the capability. -/
  msixTable : Sp Dw := []
  msixPend : List Nat := []
  msixOn : Bool := false
  msixMask : Bool := false
  /-- Bytes of HBM that BAR 2 exposes (R388). -/
  bar2 : Nat := 2 ^ 39
  hostRead : Dw := 0
  /-- Messages sent over Orbit, latest first, and those that wait for their port to be ready (R438), oldest first. -/
  orbitOut : List OrbitMsg := []
  orbitWait : List OrbitMsg := []
  /-- The send and receive sequence numbers of the Orbit ports, and those that the suspend image holds (R432, R435). -/
  orbitTx : Sp Nat := []
  orbitRx : Sp Nat := []
  orbitKept : Sp Nat × Sp Nat := ([], [])
  /-- The core whose running context issues the next bundle. -/
  focus : Nat := 0
  agenda : List Agenda := []
  /-- Bundles of these cores that will fail a timing check, diverge, or miss in the bundle cache. -/
  replays : List Nat := []
  diverges : List Nat := []
  fetchMisses : List Nat := []
  /-- Microseconds since reset. -/
  time : Nat := 0
  /-- The free-value counter (the model's own). -/
  freeCtr : Nat := 0
deriving DecidableEq, Repr

/-- What a meaning answers. -/
abbrev Res := Host.Outcome State Fault Refusal

/-- The machine right after reset: no core has a launch, memory lists nothing, the service die has not booted (R438).
(DESIGN CHOICE, log entry 17.) -/
def State.reset : State := {}

/-- What a byte of memory that nothing has written reads as (log entry 2). -/
def memDefault : Byte := 0

/-- The canonical form of memory: addresses strictly rising, no default byte listed. -/
def Memory.wf (m : List Host.Cell) : Bool := Sp.wf memDefault m

end Sys2Proof.Machine
end

