-- ==== Sys2Proof/Machine/Store.lean ====
section
/-! DEFINITION. Accessors: cores, contexts, pairs, clusters, dies, launches and transfers by key; the keys; registers. -/

namespace Sys2Proof.Machine

/-! ### Keys -/

/-- Physical core p of cluster `clu` (a cluster key is 16·die + cluster): R153. -/
def coreKey (clu p : Nat) : Nat := clu * 17 + p
def cluOfCore (core : Nat) : Nat := core / 17
def physOfCore (core : Nat) : Nat := core % 17
def dieOfClu (clu : Nat) : Nat := clu / 16
def dieOfCore (core : Nat) : Nat := core / 272
/-- Stack group of a cluster within the device (R6): four clusters of a die share one. -/
def sgOfClu (clu : Nat) : Nat := clu / 4
/-- The pair of logical core `logical` of a cluster (R43). -/
def pairKey (clu logical : Nat) : Nat := clu * 8 + logical / 2
def cluOfPair (p : Nat) : Nat := p / 8
def dieOfPair (p : Nat) : Nat := p / 128
/-- The supply island of a pair: a quarter of its die (R3), four clusters to an island (log entry 7). -/
def islandOfPair (p : Nat) : Nat := p / 8 % 16 / 4
/-- Phaser keys: cluster phaser n of a cluster, and die phaser n of a die. -/
def cluPhaserKey (clu n : Nat) : Nat := clu * 32 + n
def diePhaserKey (die n : Nat) : Nat := 4096 + die * 256 + n

/-! ### Parts of the state -/

def State.core (s : State) (k : Nat) : Core := Sp.get {} s.cores k
def State.setCore (s : State) (k : Nat) (c : Core) : State := { s with cores := Sp.put s.cores k c }
def State.modCore (s : State) (k : Nat) (f : Core → Core) : State := s.setCore k (f (s.core k))

def Core.ctx (c : Core) (x : Nat) : Ctx := Sp.get {} c.ctxs x
def Core.setCtx (c : Core) (x : Nat) (v : Ctx) : Core := { c with ctxs := Sp.put c.ctxs x v }
def State.ctx (s : State) (k x : Nat) : Ctx := (s.core k).ctx x
def State.setCtx (s : State) (k x : Nat) (v : Ctx) : State := s.setCore k ((s.core k).setCtx x v)
def State.modCtx (s : State) (k x : Nat) (f : Ctx → Ctx) : State := s.setCtx k x (f (s.ctx k x))

def State.pair (s : State) (k : Nat) : Pair := Sp.get {} s.pairs k
def State.setPair (s : State) (k : Nat) (p : Pair) : State := { s with pairs := Sp.put s.pairs k p }
def State.modPair (s : State) (k : Nat) (f : Pair → Pair) : State := s.setPair k (f (s.pair k))

def State.clu (s : State) (k : Nat) : Cluster := Sp.get {} s.clusters k
def State.setClu (s : State) (k : Nat) (c : Cluster) : State := { s with clusters := Sp.put s.clusters k c }
def State.modClu (s : State) (k : Nat) (f : Cluster → Cluster) : State := s.setClu k (f (s.clu k))

def State.die (s : State) (k : Nat) : Die := Sp.get {} s.dies k
def State.setDie (s : State) (k : Nat) (d : Die) : State := { s with dies := Sp.put s.dies k d }
def State.modDie (s : State) (k : Nat) (f : Die → Die) : State := s.setDie k (f (s.die k))

def State.launch (s : State) (k : Nat) : Launch := Sp.get {} s.launches k
def State.setLaunch (s : State) (k : Nat) (l : Launch) : State := { s with launches := Sp.put s.launches k l }
def State.modLaunch (s : State) (k : Nat) (f : Launch → Launch) : State := s.setLaunch k (f (s.launch k))

def State.setXfer (s : State) (k : Nat) (x : Xfer) : State := { s with xfers := Sp.put s.xfers k x }

/-- The Orbit port that a message leaves by: that of the device it is for, of sixteen. (DESIGN CHOICE, log entry 95.) -/
def orbitPort : OrbitMsg → Nat
  | .share dst _ _ _ _ _ _ => dst % 16
  | .shareDone dst _ _ _ => dst % 16
  | .shareKill dst _ _ _ => dst % 16
  | .energy dst _ _ _ => dst % 16
  | .shareClass dst _ _ _ => dst % 16
  | _ => 0

/-- An Orbit port carries messages from the moment it reports ready (R438) to the moment it stops for a suspension (R432 step 5); else they
wait at the sender's port (R434). Port p is the (p mod 4)th of die p / 4 (DESIGN CHOICE, log entry 95). -/
def State.portOpen (s : State) (port : Nat) : Bool :=
  s.booted && !s.powerOff && s.susp != .suspended && !(s.die (port / 4)).stopped && bitOf (s.die (port / 4)).ready.toNat (33 + port % 4)

/-- A message leaves over Orbit; its port's send sequence number rises (R432). One whose port is not ready waits for it (R438). -/
def State.sendOrbit (s : State) (m : OrbitMsg) : State :=
  if s.portOpen (orbitPort m) then
    { s with orbitOut := m :: s.orbitOut, orbitTx := Sp.set 0 s.orbitTx (orbitPort m) (Sp.get 0 s.orbitTx (orbitPort m) + 1) }
  else { s with orbitWait := s.orbitWait ++ [m] }

/-- Messages that wait leave by the ports that have reported ready since (R438), in their order. -/
def State.orbitGo (s : State) : State := s.orbitWait.foldl State.sendOrbit { s with orbitWait := [] }

/-- The phaser of a key (R337). -/
def State.phaser (s : State) (k : Nat) : Phaser :=
  if k < 4096 then Sp.get {} (s.clu (k / 32)).phasers (k % 32)
  else Sp.get {} (s.die ((k - 4096) / 256)).phasers ((k - 4096) % 256)

def State.setPhaser (s : State) (k : Nat) (p : Phaser) : State :=
  if k < 4096 then s.modClu (k / 32) (fun c => { c with phasers := Sp.set {} c.phasers (k % 32) p })
  else s.modDie ((k - 4096) / 256) (fun d => { d with phasers := Sp.set {} d.phasers ((k - 4096) % 256) p })

/-- The pair of a core (R43): by the logical core it serves. -/
def State.pairOf (s : State) (core : Nat) : Nat := pairKey (cluOfCore core) (s.core core).logical

/-- The launch whose group a core holds (R372). -/
def State.launchOf (s : State) (core : Nat) : Option Launch := (s.core core).launch.map s.launch

/-- OWNER of the launch a core serves; 0 where it serves none. -/
def State.ownerOf (s : State) (core : Nat) : Byte :=
  match s.launchOf core with
  | some l => l.owner
  | none => 0

/-- The physical core that holds logical core `logical` of this core's cluster for the same launch (R193, R223, R236). -/
def State.peerCore (s : State) (core logical : Nat) : Option Nat :=
  match s.launchOf core with
  | none => none
  | some l => (l.groups.find? (fun g => g.clu == cluOfCore core && g.logical == logical)).map (·.core)

/-- The upper twin of the tidelocked group that a core holds (R44, R373). -/
def State.upperOf (s : State) (core : Nat) : Option Nat :=
  match s.launchOf core with
  | none => none
  | some l => (l.groups.find? (fun g => g.core == core)).bind (·.twin)

/-! ### The twins of a tidelocked group (R45) -/

/-- What a core holds of its own, as its twin's store keeps it. -/
def Core.stores (k : Core) : TwinStore :=
  { tiles := k.tiles, tileMarks := k.tileMarks, scratch := k.scratch, scratchPoison := k.scratchPoison, sa := k.sa, mrun := k.mrun }

/-- The operation in the array as the upper twin has read it: it stands where the lower twin's stands. -/
def twinRun (a b : Option MRun) : Option MRun :=
  match a, b with
  | some r, some q => some { q with ent := r.ent, beat := r.beat, rep := r.rep, waits := r.waits }
  | m, _ => m

/-- The core as its upper twin sees it: the twin's own stores in the place of its own. -/
def Core.asUpper (k : Core) (t : TwinStore) : Core :=
  { k with tiles := t.tiles, tileMarks := t.tileMarks, scratch := t.scratch, scratchPoison := t.scratchPoison, sa := t.sa
           mrun := twinRun k.mrun t.mrun, twin := none }

/-- A change of the stores of a core that reaches its upper twin's as well. -/
def Core.onTwin (k : Core) (f : Core → Core) : Core := { f k with twin := k.twin.map (fun t => (f (k.asUpper t)).stores) }

/-- The state as the upper twin of a core sees it. -/
def State.asUpper (s : State) (core : Nat) (t : TwinStore) : State := s.modCore core (fun k => k.asUpper t)

/-- What both twins of a tidelocked group do, each on its own stores (R44, R45): the lower twin's effects, and what the upper twin's leave in
its stores. -/
def State.bothTwins (s : State) (core : Nat) (f : State → State) : State :=
  match (s.core core).twin with
  | none => f s
  | some t => (f s).modCore core (fun k => { k with twin := some ((f (s.asUpper core t)).core core).stores })

/-- The launches that hold cores. -/
def State.runningLaunches (s : State) : List (Nat × Launch) := s.launches.filter (fun l => l.2.phase == .running)

/-- L1 bytes of a core (R364 L1SZ) and the scratchpad that is left (R194). -/
def l1Bytes (sz : Nat) : Nat := 131072 * (sz % 4 + 1)
def Core.scratchSize (c : Core) : Nat := Config.sramBytes - l1Bytes c.l1sz

/-! ### Packets (R363, R364) -/

/-- Dword i of a packet, descriptor or block. -/
def dwOf (l : List Dw) (i : Nat) : Nat := (l.getD i 0).toNat

def Launch.hdr (l : Launch) : Nat := dwOf l.packet 0
def Launch.launchId (l : Launch) : Nat := fld l.hdr 63 32
def Launch.lenient (l : Launch) : Bool := bitOf l.hdr 11
def Launch.tidelocked (l : Launch) : Bool := bitOf l.hdr 10
def Launch.rfs (l : Launch) : Bool := bitOf l.hdr 6
def Launch.afs (l : Launch) : Bool := bitOf l.hdr 5
def Launch.ord (l : Launch) : Bool := bitOf l.hdr 4
def Launch.nctx (l : Launch) : Nat := fld (dwOf l.packet 3) 2 0
def Launch.ncg (l : Launch) : Nat := fld (dwOf l.packet 3) 7 3
def Launch.nclu (l : Launch) : Nat := fld (dwOf l.packet 3) 10 8
def Launch.nsg (l : Launch) : Nat := fld (dwOf l.packet 3) 15 11
def Launch.ndev (l : Launch) : Nat := fld (dwOf l.packet 3) 22 16
def Launch.ndom (l : Launch) : Nat := fld (dwOf l.packet 3) 23 23
def Launch.l1szOf (l : Launch) : Nat := fld (dwOf l.packet 3) 25 24
def Launch.saRows (l : Launch) : Nat := fld (dwOf l.packet 4) 8 0
def Launch.nch (l : Launch) : Nat := fld (dwOf l.packet 4) 21 16
def Launch.emask (l : Launch) : Nat := fld (dwOf l.packet 4) 43 32
def Launch.ebudget (l : Launch) : Nat := fld (dwOf l.packet 5) 31 0

/-- Stream accumulator rows of the core group on a core (R236, R306). -/
def State.rowsOf (s : State) (core : Nat) : Nat :=
  match s.launchOf core with
  | some l => l.saRows
  | none => 0

/-! ### Classes and registers (R105, R106) -/

/-- A value converted to class S, V, M or G (R105). -/
def Val.toS : Val → Dw
  | .s x => x
  | .v x => x.setWidth 64
  | .m x => x.setWidth 64
  | .g x => x.setWidth 64

/-- `n` copies of the number x of w bits, side by side. -/
def repNat (w x : Nat) : Nat → Nat
  | 0 => 0
  | n + 1 => x + 2 ^ w * repNat w x n

def Val.toV : Val → Vec
  | .s x => BitVec.ofNat 4096 (repNat 32 (x.toNat % 2 ^ 32) 128)
  | .v x => x
  | .m x => x.setWidth 4096
  | .g x => BitVec.ofNat 4096 (repNat 32 x.toNat 128)

def Val.toM : Val → Mask
  | .s x => x.setWidth 128
  | .v x => x.setWidth 128
  | .m x => x
  | .g x => x.setWidth 128

def Val.toG : Val → BitVec 1
  | .s x => x.setWidth 1
  | .v x => x.setWidth 1
  | .m x => x.setWidth 1
  | .g x => x

/-- Read the register of an identifier (R106): s0 is zero, m0 all ones, g0 one; a reserved identifier reads as zero. -/
def Bank.read (b : Bank) (r : Nat) : Val :=
  if r < 0x40 then .s (if r = 0 then 0 else Sp.get 0 b.s r)
  else if r < 0x80 then .v (Sp.get 0 b.v (r - 0x40))
  else if r < 0x90 then .m (if r = 0x80 then BitVec.allOnes 128 else Sp.get 0 b.m (r - 0x80))
  else if r < 0xA0 then .s (Sp.get 0 b.a (r - 0x90))
  else if r < 0xA4 then .g (if r = 0xA0 then 1 else Sp.get 0 b.g (r - 0xA0))
  else .s 0

/-- Write the register of an identifier, converted to its class (R105), with its poison mark. A write to s0, m0 or g0 is
ignored (R102). -/
def Bank.write (b : Bank) (r : Nat) (v : Val) (mark : Option Dw) : Bank :=
  if r = 0 ∨ r = 0x80 ∨ r = 0xA0 ∨ 0xA4 ≤ r then b
  else
    let marks := match mark with
      | some a => Sp.put b.marks r a
      | none => Sp.erase b.marks r
    let b := { b with marks := marks }
    if r < 0x40 then { b with s := Sp.set 0 b.s r v.toS }
    else if r < 0x80 then { b with v := Sp.set 0 b.v (r - 0x40) v.toV }
    else if r < 0x90 then { b with m := Sp.set 0 b.m (r - 0x80) v.toM }
    else if r < 0xA0 then { b with a := Sp.set 0 b.a (r - 0x90) v.toS }
    else { b with g := Sp.set 0 b.g (r - 0xA0) v.toG }

/-- The poisoned address of a register whose value is marked (R410). -/
def Bank.mark (b : Bank) (r : Nat) : Option Dw := Sp.find? b.marks r

/-- Scalar, address and mask registers by number. -/
def Bank.areg (b : Bank) (n : Nat) : Dw := Sp.get 0 b.a n
def Bank.sreg (b : Bank) (n : Nat) : Dw := if n = 0 then 0 else Sp.get 0 b.s n
def Bank.mreg (b : Bank) (n : Nat) : Mask := if n = 0 then BitVec.allOnes 128 else Sp.get 0 b.m n
def Bank.greg (b : Bank) (n : Nat) : BitVec 1 := if n = 0 then 1 else Sp.get 0 b.g n

/-- The ports of one unit of a context (R29). -/
def Ctx.unit (c : Ctx) (u : Nat) : UnitPorts := Sp.get {} c.ports u
def Ctx.setUnit (c : Ctx) (u : Nat) (p : UnitPorts) : Ctx := { c with ports := Sp.set {} c.ports u p }

/-- The context is in a handler (R147). -/
def Ctx.inHandler (c : Ctx) : Bool := c.inh || c.uih

/-- A fresh free-value number, and the state that has used it. -/
def State.fresh (s : State) : Nat × State := (s.freeCtr, { s with freeCtr := s.freeCtr + 1 })

end Sys2Proof.Machine
end

