-- ==== Sys2Proof/Machine/Mem.lean ====
section
/-! DEFINITION. The stores: home memory with poison and release tags, the L2 slices of the device, the L1s of a
cluster, scratchpads with their wake comparators, generations, drains, releases and acquires (R263 to R284, R409 to R411). -/

namespace Sys2Proof.Machine

/-- Bytes at their addresses. -/
abbrev Cells := List (Nat × Byte)

/-- The bytes `bs` at addresses from `a` on. -/
def cellsAt (a : Nat) : List Byte → Cells
  | [] => []
  | b :: t => (a, b) :: cellsAt (a + 1) t

/-- `n` bytes read from address `a` on by `rd`. -/
def readSeq (rd : Nat → Byte) (a : Nat) : Nat → List Byte
  | 0 => []
  | n + 1 => rd a :: readSeq rd (a + 1) n

/-! ### Poison marks (R409 to R411) -/

/-- The 32-byte granules that some of the cells lie in. -/
def granulesOf (cs : Cells) : List Nat := (cs.map (fun c => c.1 / 32)).eraseDups

/-- The cells cover granule g whole. -/
def covers (cs : Cells) (g : Nat) : Bool := ((cs.filter (fun c => c.1 / 32 == g)).map (·.1)).eraseDups.length == 32

/-- The marks that remain after a write: a write of all 32 bytes clears a granule's mark (R411). -/
def clearMarks (marks : List Nat) (cs : Cells) : List Nat :=
  if marks.isEmpty then [] else marks.filter (fun g => !(covers cs g))

/-- List a granule as poisoned, keeping the list strictly rising. -/
def addMark : List Nat → Nat → List Nat
  | [], g => [g]
  | a :: t, g => if g < a then g :: a :: t else if g = a then a :: t else a :: addMark t g

/-- The first cell that lies in a marked granule. -/
def firstMarked (marks : List Nat) (cs : List Nat) : Option Nat :=
  if marks.isEmpty then none else cs.find? (fun a => marks.contains (a / 32))

/-! ### Home memory and the L2 slices (R1, R263, R393) -/

/-- The fields of a physical address (R393). -/
def paDev (pa : Nat) : Nat := fld pa 51 46
def paRegion (pa : Nat) : Nat := fld pa 45 44
/-- The address is homed off the device (R393). -/
def paOff (pa : Nat) : Bool := paDev pa != Config.devId || paRegion pa == 1
/-- The place that an address names: region 00 uses bits [38:0] alone (R393). -/
def paNorm (pa : Nat) : Nat := if paRegion pa = 0 then pa / 2 ^ 44 * 2 ^ 44 + pa % 2 ^ 39 else pa
/-- An address of the device's registers (R388). -/
def paReg (pa : Nat) : Bool := paRegion pa == 2 && paDev pa == Config.devId
/-- A local address of region 00: HBM of the device. -/
def isHbm (pa : Nat) : Bool := paDev pa == Config.devId && paRegion pa == 0
/-- The HBM stack of a local address, sixteen of 2^35 bytes: R10 makes the 32 GB of R1 decimal and R393 gives 2^39 addresses to
sixteen stacks (log entry 10). -/
def stackOf (pa : Nat) : Nat := pa % 2 ^ 39 / 2 ^ 35

/-- The home of an address does not answer: a lost die's stack (R423), a suspended device (R434). -/
def State.deadHome (s : State) (pa : Nat) : Bool :=
  if isHbm pa then (s.die (stackOf pa / 4)).fenced || (s.die (stackOf pa / 4)).stopped
  else paDev pa != Config.devId && bitOf s.peersSuspended.toNat (paDev pa)

/-- The home of an HBM address is lost: its die is fenced or has stopped, its links carry nothing, and no write reaches it (R422). -/
def State.lostHome (s : State) (pa : Nat) : Bool := isHbm pa && s.deadHome pa

/-- A byte of memory; what nothing has written reads as the default. -/
def Memory.read (m : List Host.Cell) (a : Nat) : Byte := Sp.get memDefault m a
/-- Write one byte of memory, keeping the canonical form. -/
def Memory.write (m : List Host.Cell) (a : Nat) (b : Byte) : List Host.Cell := Sp.set memDefault m a b
/-- Write cells in order. -/
def Memory.writes (m : List Host.Cell) : Cells → List Host.Cell
  | [] => m
  | c :: t => Memory.writes (Memory.write m c.1 c.2) t

/-- Write cells at their home memory, below the L2. -/
def State.memWrite (s : State) (cs : Cells) : State := { s with mem := Memory.writes s.mem cs }

/-- The marks of home memory after a granule's mark is set or cleared. -/
def setMark (marks : List Nat) (g : Nat) (on : Bool) : List Nat := if on then addMark marks g else marks.filter (· != g)

/-- Bit field helpers on a 128-byte line held as 1,024 bits. -/
def lineByte (d : BitVec 1024) (o : Nat) : Byte := BitVec.ofNat 8 (d.toNat / 2 ^ (8 * o))
def lineSet (d : BitVec 1024) (o : Nat) (b : Byte) : BitVec 1024 :=
  let sh := 2 ^ (8 * o)
  BitVec.ofNat 1024 (d.toNat - (lineByte d o).toNat * sh + b.toNat * sh)
def maskBit (m : BitVec 128) (o : Nat) : Bool := bitOf m.toNat o
def maskSet (m : BitVec 128) (o : Nat) : BitVec 128 := m ||| BitVec.ofNat 128 (2 ^ o)
def maskClear (m : BitVec 128) (o : Nat) : BitVec 128 := m &&& ~~~(BitVec.ofNat 128 (2 ^ o))
/-- The mark of granule i of a line, and the marks with it set or cleared. -/
def markBit (m : BitVec 4) (i : Nat) : Bool := bitOf m.toNat i
def markPut (m : BitVec 4) (i : Nat) (on : Bool) : BitVec 4 :=
  if on then m ||| BitVec.ofNat 4 (2 ^ i) else m &&& ~~~(BitVec.ofNat 4 (2 ^ i))
/-- Dirty bytes of granule i of a line. -/
def dirtyOf (d : BitVec 128) (i : Nat) : Nat := fld d.toNat (32 * i + 31) (32 * i)
/-- The marks of a line's home after its dirty bytes were written there: a granule wholly dirty brings its mark, one partly dirty adds
it (R409, R411). -/
def marksBack (home : BitVec 4) (dirty : BitVec 128) (marks : BitVec 4) : BitVec 4 :=
  [0, 1, 2, 3].foldl (fun h i =>
    if dirtyOf dirty i = 0 then h
    else markPut h i (markBit marks i || (dirtyOf dirty i != 2 ^ 32 - 1 && markBit h i))) home
/-- The marks that home memory lists for a line. -/
def memMarks (marks : List Nat) (line : Nat) : BitVec 4 :=
  [0, 1, 2, 3].foldl (fun h i => if marks.contains (4 * line + i) then markPut h i true else h) 0

/-- The dirty bytes of a line as cells. -/
def dirtyCells (line : Nat) (d : BitVec 1024) (dirty : BitVec 128) : Cells :=
  (List.range 128).filterMap (fun o => if maskBit dirty o then some (line * 128 + o, lineByte d o) else none)

/-- A byte as the home L2 slice of its address holds it: the L2's line, else memory (R263, R444). -/
def State.homeByte (s : State) (pa : Nat) : Byte :=
  let pa := paNorm pa
  match Sp.find? s.l2 (pa / 128) with
  | some l => lineByte l.data (pa % 128)
  | none => Memory.read s.mem pa

/-- The granule of an address is poisoned as its home holds it (R409). -/
def State.homeMarked (s : State) (pa : Nat) : Bool :=
  let pa := paNorm pa
  match Sp.find? s.l2 (pa / 128) with
  | some l => markBit l.marks (pa % 128 / 32)
  | none => s.poison.contains (pa / 32)

/-- The dirty bytes of a line of the L2 reach memory, with their marks. -/
def State.l2Clean (s : State) (line : Nat) (l : L2Line) : State :=
  let m := marksBack (memMarks s.poison line) l.dirty l.marks
  { s.memWrite (dirtyCells line l.data l.dirty) with
    poison := [0, 1, 2, 3].foldl (fun p i => if dirtyOf l.dirty i = 0 then p else setMark p (4 * line + i) (markBit m i)) s.poison }

/-- The same for a line that the L2 may hold. -/
def State.l2CleanLine (s : State) (line : Nat) : State :=
  match Sp.find? s.l2 line with
  | none => s
  | some l => { s.l2Clean line l with l2 := Sp.put s.l2 line { l with dirty := 0 } }

/-- A line leaves the L2, its dirty bytes reaching memory. -/
def State.l2Evict (s : State) (line : Nat) : State :=
  match Sp.find? s.l2 line with
  | none => s
  | some l => { s.l2Clean line l with l2 := Sp.erase s.l2 line }

/-- The slice of a line, of sixteen a stack (R1). (DESIGN CHOICE, log entry 75.) -/
def l2Slice (line : Nat) : Nat :=
  if isHbm (line * 128) then stackOf (line * 128) * 16 + line % 16 else line % 256
/-- Lines of a slice of 1.5 MiB. -/
def l2SliceLines : Nat := 12288

/-- A full slice gives up its first line for another. (DESIGN CHOICE, log entry 75.) -/
def State.l2Room (s : State) (line : Nat) : State :=
  let mine := s.l2.filter (fun e => l2Slice e.1 == l2Slice line)
  if l2SliceLines ≤ mine.length then
    match mine with
    | e :: _ => s.l2Evict e.1
    | [] => s
  else s

/-- A line comes into the L2 with its marks. -/
def State.l2Fill (s : State) (line : Nat) : State :=
  if (Sp.find? s.l2 line).isSome then s
  else
    let s := s.l2Room line
    let d := BitVec.ofNat 1024 (natOfBytes (readSeq (Memory.read s.mem) (line * 128) 128))
    { s with l2 := Sp.put s.l2 line { data := d, marks := memMarks s.poison line } }

/-- A line of the L2 changes. -/
def State.modL2 (s : State) (line : Nat) (f : L2Line → L2Line) : State := { s with l2 := Sp.put s.l2 line (f (Sp.get {} s.l2 line)) }

/-- One byte of an L2 line is written and stays dirty there (R444). -/
def L2Line.write (l : L2Line) (o : Nat) (b : Byte) : L2Line := { l with data := lineSet l.data o b, dirty := maskSet l.dirty o }

/-- No tag stands at place k (R280). -/
def dropTag (m : Sp (Nat × Nat)) (k : Nat) : Sp (Nat × Nat) := m.filter (fun t => t.1 != k)

/-- One byte written at its home L2 slice; the tag of what it replaces is gone (R280). A lost home takes none (R422). -/
def State.homeWrite1 (s : State) (c : Nat × Byte) : State :=
  let pa := paNorm c.1
  if s.lostHome pa then s
  else
    let s := (s.l2Fill (pa / 128)).modL2 (pa / 128) (fun l => l.write (pa % 128) c.2)
    { s with tags := dropTag s.tags pa }

/-- Cells written at their home L2 slices. -/
def State.homeWrite (s : State) (cs : Cells) : State := cs.foldl State.homeWrite1 s

/-- The mark of a granule is set, or cleared, where its home holds it. -/
def State.homeMark (s : State) (on : Bool) (g : Nat) : State :=
  let g := paNorm (32 * g) / 32
  if (Sp.find? s.l2 (g / 4)).isSome then s.modL2 (g / 4) (fun l => { l with marks := markPut l.marks (g % 4) on })
  else { s with poison := setMark s.poison g on }

/-- The granules that cells cover whole lose their marks at home (R411). -/
def State.homeClear (s : State) (cs : Cells) : State := ((granulesOf cs).filter (covers cs)).foldl (State.homeMark · false) s

/-- A write that acts at the home: values, and the poison rule of R411. (DEDUCED, log entry 62.) -/
def State.homeStore (s : State) (cs : Cells) : State := (s.homeWrite cs).homeClear cs

/-- Off-device lines of the L2 are written back to their homes (SYS release, R273). (DEDUCED, log entry 69.) -/
def State.l2WriteBack (s : State) : State :=
  (s.l2.map (·.1)).foldl (fun a l => if paOff (l * 128) then a.l2CleanLine l else a) s

/-- Off-device lines of the L2 are invalidated (SYS acquire, R273), dirty bytes first reaching their home. -/
def State.l2Invalidate (s : State) : State :=
  (s.l2.map (·.1)).foldl (fun a l => if paOff (l * 128) then a.l2Evict l else a) s

/-- Every line of the L2 reaches its home and leaves the L2 (R432 step 4). -/
def State.l2FlushAll (s : State) : State := (s.l2.map (·.1)).foldl State.l2Evict s

/-! ### Release tags (R280) -/

/-- The tag of the value at pa, of n bytes, as its home holds it: physical core and generation. -/
def State.tagAt (s : State) (pa n : Nat) : Option (Nat × Nat) :=
  (List.range n).findSome? (fun i => Sp.find? s.tags (paNorm pa + i))

/-- The bytes of a release's value carry its tag where they stand: in the core's L1, else at home. -/
def State.putTags (s : State) (core g : Nat) (cs : Cells) : State :=
  cs.foldl (fun a c =>
    match Sp.find? (a.core core).l1 (c.1 / 128) with
    | some l =>
      if maskBit l.dirty (c.1 % 128) then
        a.modCore core (fun k => { k with l1 := Sp.put k.l1 (c.1 / 128) { l with tags := Sp.put l.tags (c.1 % 128) (core, g) } })
      else { a with tags := Sp.put a.tags c.1 (core, g) }
    | none => { a with tags := Sp.put a.tags c.1 (core, g) }) s

/-! ### L1 (R263, R271, R277) -/

/-- The cores of a cluster that hold some state. -/
def State.coresOf (s : State) (clu : Nat) : List Nat := (s.cores.filter (fun c => cluOfCore c.1 == clu)).map (·.1)

def Core.l1Line? (c : Core) (line : Nat) : Option L1Line := Sp.find? c.l1 line
def Core.setL1 (c : Core) (line : Nat) (l : L1Line) : Core := { c with l1 := Sp.put c.l1 line l }

/-- The dirty bytes of a line that `sel` names reach their home, with their marks and tags (R280, R409). -/
def State.giveBack (s : State) (line : Nat) (l : L1Line) (sel : BitVec 128) : State :=
  let d := l.dirty &&& sel
  if d = 0 ∨ s.lostHome (line * 128) then s
  else
    let s := (s.homeWrite (dirtyCells line l.data d)).modL2 line (fun h => { h with marks := marksBack h.marks d l.marks })
    { s with tags := (l.tags.filter (fun t => maskBit d t.1)).foldl (fun m t => Sp.put m (line * 128 + t.1) t.2) s.tags }

/-- Write a core's dirty bytes of one line back to their home; the line stays, clean (R228 wbl). -/
def State.writeBackLine (s : State) (core line : Nat) : State :=
  match (s.core core).l1Line? line with
  | none => s
  | some l =>
    if l.dirty = 0 then s
    else (s.giveBack line l (BitVec.allOnes 128)).modCore core (fun c => c.setL1 line { l with dirty := 0, tags := [] })

/-- Write back and drop one line of a core's L1 (R228 invl). -/
def State.invalidateLine (s : State) (core line : Nat) : State :=
  let s := s.writeBackLine core line
  match (s.core core).l1Line? line with
  | none => s
  | some _ => s.modCore core (fun c => { c with l1 := Sp.erase c.l1 line })

/-- Every dirty copy of a line leaves the L1s of the given cores, and the line with it (exclusive ownership, R231). -/
def State.purgeLine (s : State) (cores : List Nat) (line : Nat) : State :=
  cores.foldl (fun a k => a.invalidateLine k line) s

/-- The core of the cluster whose L1 holds this byte dirty. -/
def State.dirtyAt (s : State) (clu line o : Nat) : Option L1Line :=
  (s.coresOf clu).findSome? (fun k =>
    match (s.core k).l1Line? line with
    | some l => if maskBit l.dirty o then some l else none
    | none => none)

/-- The L1 line that gives a core of the cluster a byte: its own copy, else a dirty copy of the cluster. -/
def State.l1Source (s : State) (core line o : Nat) : Option L1Line :=
  match (s.core core).l1Line? line with
  | some l => if maskBit l.valid o then some l else s.dirtyAt (cluOfCore core) line o
  | none => s.dirtyAt (cluOfCore core) line o

/-- A byte as a core of the cluster reads it through its L1. -/
def State.l1Byte (s : State) (core pa : Nat) : Byte :=
  match s.l1Source core (pa / 128) (pa % 128) with
  | some l => lineByte l.data (pa % 128)
  | none => s.homeByte pa

/-- The byte lies in a granule that is marked where the core reads it (R409). -/
def State.l1Marked (s : State) (core pa : Nat) : Bool :=
  match s.l1Source core (pa / 128) (pa % 128) with
  | some l => markBit l.marks (pa % 128 / 32)
  | none => s.homeMarked pa

/-- The order in which replacement takes lines by their hint: streaming, then default, then sticky (R222). -/
def hintRank (h : Nat) : Nat := if h = 1 then 0 else if h = 2 then 2 else 1

/-- The line that a core's L1 replaces, `line` apart. The L1 is one set. (DESIGN CHOICE, log entry 76.) -/
def Core.l1Victim (c : Core) (line : Nat) : Option Nat :=
  let ls := c.l1.filter (fun e => e.1 != line)
  ([0, 1, 2].findSome? (fun r => ls.find? (fun e => hintRank e.2.hint == r))).map (·.1)

/-- A full L1 gives up a line before another comes in (R2, R222). -/
def State.l1Room (s : State) (core line : Nat) : State :=
  let c := s.core core
  if (c.l1Line? line).isNone ∧ l1Bytes c.l1sz / 128 ≤ c.l1.length then
    match c.l1Victim line with
    | some v => s.invalidateLine core v
    | none => s
  else s

/-- The marks of a line as a core reads its granules: granule i by its first byte that the core does not hold, and its own mark. -/
def State.fillMarks (s : State) (core line : Nat) (l : L1Line) : BitVec 4 :=
  (List.range 128).foldl (fun m o =>
    if !(maskBit l.valid o) && s.l1Marked core (line * 128 + o) then markPut m (o / 32) true else m) l.marks

/-- A load's line comes into the core's L1: every byte not held is filled (R222: a bypass access allocates nothing and leaves the
hint). -/
def State.l1Fill (s : State) (core line hint : Nat) : State :=
  if hint = 3 then s
  else
    let s := s.l2Fill line
    match (s.core core).l1Line? line with
    | some l =>
      if l.valid = BitVec.allOnes 128 then
        (if l.hint = hint then s else s.modCore core (fun c => c.setL1 line { l with hint := hint }))
      else fill s l
    | none => fill (s.l1Room core line) {}
where
  fill (s : State) (l : L1Line) : State :=
    let d := BitVec.ofNat 1024 (natOfBytes (readSeq (s.l1Byte core) (line * 128) 128))
    let m := s.fillMarks core line l
    s.modCore core (fun c => c.setL1 line { l with data := d, valid := BitVec.allOnes 128, hint := hint, marks := m })

/-- A plain global access of the core would hit its L1 for these addresses (timing of R35 only). -/
def State.l1Hit (s : State) (core : Nat) (addrs : List Nat) : Bool :=
  addrs.all (fun a =>
    match (s.core core).l1Line? (a / 128) with
    | some l => maskBit l.valid (a % 128)
    | none => false)

/-- The bytes of the aligned 8-byte unit of a line that byte o lies in. -/
def unitMask (o : Nat) : BitVec 128 := BitVec.ofNat 128 (255 * 2 ^ (o / 8 * 8))

/-- Another core of the cluster gives up its copy of a byte that is stored to. Its dirty bytes of the aligned unit of 8 bytes first reach
their home together, so that no access of its own is written back in part (R224, R271); they stay there clean. -/
def State.l1Yield (s : State) (core line o : Nat) : State :=
  (s.coresOf (cluOfCore core)).foldl (fun a k =>
    if k = core then a
    else match (a.core k).l1Line? line with
    | none => a
    | some l =>
      if maskBit l.valid o then
        (a.giveBack line l (unitMask o)).modCore k (fun c => c.setL1 line
          { l with valid := maskClear l.valid o, dirty := l.dirty &&& ~~~(unitMask o), tags := l.tags.filter (fun t => t.1 / 8 != o / 8) })
      else a) s

/-- One byte of a plain store enters the core's L1 (R271). A line that was clean takes the generation GEN (R277), and the line the
store's hint (R222). `through` also writes the home at once and leaves the byte clean (R398). -/
def State.l1Store1 (hint : Nat) (through : Bool) (core : Nat) (s : State) (c : Nat × Byte) : State :=
  let line := c.1 / 128
  let o := c.1 % 128
  let mk := s.l1Marked core c.1
  let s := s.l1Yield core line o
  let own := (s.core core).l1Line? line
  if through ∨ (hint = 3 ∧ own.isNone) then
    let s := s.homeWrite [c]
    match own with
    | none => s
    | some l => s.modCore core (fun k => k.setL1 line
        { l with
          data := lineSet l.data o c.2, valid := maskSet l.valid o, dirty := maskClear l.dirty o, tags := dropTag l.tags o
          hint := if hint = 3 then l.hint else hint, marks := if mk then markPut l.marks (o / 32) true else l.marks })
  else
    let s := if own.isSome then s else s.l1Room core line
    let k := s.core core
    let l : L1Line := own.getD {}
    s.setCore core (k.setL1 line
      { l with
        data := lineSet l.data o c.2
        valid := maskSet l.valid o
        dirty := maskSet l.dirty o
        gen := if l.dirty = 0 then k.gen else l.gen
        hint := if hint = 3 then l.hint else hint
        tags := dropTag l.tags o
        marks := if mk then markPut l.marks (o / 32) true else l.marks })

/-- The granules that a store covers whole, or that it stores poisoned, take their mark where the core has written them: in its L1
line, or at home (R399, R411). -/
def State.l1Mark (core : Nat) (through on : Bool) (s : State) (g : Nat) : State :=
  match (s.core core).l1Line? (g / 4) with
  | some l =>
    let s := s.modCore core (fun k => k.setL1 (g / 4) { l with marks := markPut l.marks (g % 4) on })
    if through then s.homeMark on g else s
  | none => s.homeMark on g

/-- A store of a core to write-back or write-through memory (R271, R398): its bytes, and the marks it clears (R411). -/
def State.l1Store (s : State) (core hint : Nat) (through : Bool) (cs : Cells) : State :=
  ((granulesOf cs).filter (covers cs)).foldl (State.l1Mark core through false) (cs.foldl (State.l1Store1 hint through core) s)

/-- The core's L1 loses the clean bytes of every line (DEV acquire, R273). -/
def Core.dropClean (c : Core) : Core :=
  { c with l1 := c.l1.filterMap (fun l => if l.2.dirty = 0 then none else some (l.1, { l.2 with valid := l.2.dirty })) }

/-! ### Drains, releases and acquires (R266, R273, R277 to R279) -/

/-- The core drains to generation g at once (R278). -/
def State.drainTo (s : State) (core g : Nat) : State :=
  let lines := ((s.core core).l1.filter (fun l => decide (l.2.dirty ≠ 0) && decide (l.2.gen ≤ g))).map (·.1)
  let s := lines.foldl (fun a l => a.writeBackLine core l) s
  s.modCore core (fun c => { c with log := c.log.filter (fun e => decide (g < e.gen)), drained := max c.drained g })

/-- A comparator counts the bytes of one write that fall in its range; it fires at its threshold and starts again (R141). -/
def Comp.count1 (c : Comp) (cs : Cells) : Comp × Bool :=
  if c.owner.isNone ∨ c.len = 0 then (c, false)
  else
    let n := c.count + (cs.filter (fun x => decide (c.base ≤ x.1) && decide (x.1 < c.base + c.len))).length
    if c.thr ≤ n ∧ c.count < n then ({ c with count := 0 }, true) else ({ c with count := n }, false)

/-- A token enters the wake queue of a context (R141). -/
def Ctx.pushToken (c : Ctx) : Ctx := if 16 ≤ c.tokens then { c with ovf := true } else { c with tokens := c.tokens + 1 }

/-- One write reaches every comparator of the core. -/
def Core.feedComps (c : Core) (cs : Cells) : Core :=
  c.comps.foldl (fun k e =>
    let r := e.2.count1 cs
    let k := { k with comps := Sp.put k.comps e.1 r.1 }
    match r.2, e.2.owner with
    | true, some x => k.setCtx x (k.ctx x).pushToken
    | _, _ => k) c

/-- Write the bytes of a store into a scratchpad: values, poison marks, and the comparators of R141 with the tokens they
push. One call is one write. -/
def State.scratchWrite (s : State) (core : Nat) (cs : Cells) : State :=
  if cs.isEmpty then s
  else s.modCore core (fun c =>
    (c.onTwin (fun k => { k with scratch := Memory.writes k.scratch cs, scratchPoison := clearMarks k.scratchPoison cs })).feedComps cs)

def State.scratchByte (s : State) (core off : Nat) : Byte := Memory.read (s.core core).scratch off

/-- `n` bytes of a scratchpad. -/
def State.scratchRead (s : State) (core off n : Nat) : List Byte := readSeq (s.scratchByte core) off n
/-- The little-endian number of `n` bytes of a scratchpad. -/
def State.scratchNat (s : State) (core off n : Nat) : Nat := natOfBytes (s.scratchRead core off n)
/-- Dwords of a block in a scratchpad. -/
def State.scratchDws (s : State) (core off : Nat) : Nat → List Dw
  | 0 => []
  | n + 1 => BitVec.ofNat 64 (s.scratchNat core off 8) :: State.scratchDws s core (off + 8) n

/-- The cells cut into aligned units of at most 64 bytes (R323): each is one write. -/
def unitsOf (cs : Cells) : List Cells :=
  ((cs.map (fun c => c.1 / 64)).eraseDups).map (fun u => cs.filter (fun c => c.1 / 64 == u))

end Sys2Proof.Machine
end

