-- ==== Sys2Proof/Machine/Translate.lean ====
section
/-! DEFINITION. Address translation (R392 to R407): entries, the walk, the leaf checks, A and D, the caches and XINV. -/

namespace Sys2Proof.Machine

/-! ### Trap causes (R145) -/

def cILLEGAL_BUNDLE : Nat := 1
def cILLEGAL_MOVE : Nat := 2
def cSCHEDULE_FAULT : Nat := 3
def cQUEUE_FULL : Nat := 4
def cTRANSLATION : Nat := 5
def cPERMISSION : Nat := 6
def cOWNER : Nat := 7
def cRESERVED_BIT : Nat := 8
def cALIGNMENT : Nat := 9
def cPOISON : Nat := 10
def cROLLBACK : Nat := 11
def cTIDELOCK_DIVERGENCE : Nat := 12
def cPHASER_OVERRUN : Nat := 13
def cPROMOTE_LOST : Nat := 14
def cBREAK : Nat := 15
def cUSER_INTERRUPT : Nat := 16

/-! ### Entries (R394 to R396) -/

def pteV (e : Nat) : Bool := bitOf e 0
def pteR (e : Nat) : Bool := bitOf e 1
def pteW (e : Nat) : Bool := bitOf e 2
def pteX (e : Nat) : Bool := bitOf e 3
def pteU (e : Nat) : Bool := bitOf e 4
def pteA (e : Nat) : Bool := bitOf e 5
def pteD (e : Nat) : Bool := bitOf e 6
def pteCont (e : Nat) : Bool := bitOf e 7
def pteCA (e : Nat) : Nat := fld e 9 8
def ptePfn (e : Nat) : Nat := fld e 49 10
def pteKey (e : Nat) : Nat := fld e 55 50
def pteOwner (e : Nat) : Nat := fld e 63 56

/-- A valid entry with R, W and X all 0 is a table entry (R394). -/
def pteTable (e : Nat) : Bool := !(pteR e) && !(pteW e) && !(pteX e)

/-- Some row of R395 holds for the valid entry e, at index idx of a table of level lvl. -/
def pteReserved (lvl idx e : Nat) : Bool :=
  if pteTable e then decide (lvl = 4) || decide (fld e 63 50 ≠ 0) || decide (fld e 9 4 ≠ 0)
  else
    decide (lvl < 2)
    || (pteW e && !(pteR e))
    || (pteCont e && decide (lvl = 2 ∨ lvl = 3))
    || (decide (lvl = 2) && decide (fld e 27 10 ≠ 0))
    || (decide (lvl = 3) && decide (fld e 18 10 ≠ 0))
    || (decide (lvl = 4) && pteCont e && decide (ptePfn e % 16 ≠ idx % 16))
    || decide (paRegion (ptePfn e * 4096) = 3)
    || (decide (pteKey e ≠ 0) && decide (paRegion (ptePfn e * 4096) ≠ 0))
    || (decide (paRegion (ptePfn e * 4096) = 2) && decide (pteCA e ≠ 2))

/-- Bytes that a leaf maps (R394, R401). -/
def leafSize (lvl e : Nat) : Nat := if lvl = 4 ∧ pteCont e then 2 ^ 16 else 2 ^ (12 + 9 * (4 - lvl))

/-- The physical address a leaf gives (R393, R401). -/
def leafPa (lvl e va : Nat) : Nat :=
  let size := leafSize lvl e
  paNorm (ptePfn e * 4096 / size * size + va % size)

/-- Where a leaf's A and D are kept: for a group, in its first entry (R403). -/
def adAddr (lvl e ea : Nat) : Nat := if lvl = 4 ∧ pteCont e then ea - 8 * (ea / 8 % 16) else ea

/-! ### The walk (R401 to R403) -/

/-- Kinds of access: the ACC codes of R404. -/
abbrev AccKind := Nat
def accRead : AccKind := 0
def accWrite : AccKind := 1
def accRmw : AccKind := 2
def accFetch : AccKind := 3
/-- The launch processor's read of a kernel record, which must be executable too (R366, R397). -/
def accRecord : AccKind := 4

/-- A translation fault: cause, level (7 before the walk) and the address of the deciding entry. -/
structure XFault where
  cause : Nat
  lvl : Nat
  ea : Nat
deriving DecidableEq, Repr

/-- Who translates (R400): the core whose caches serve it (none for a copy engine, the streamer and the launch processor), and
the OWNER, PTROOT and privilege it uses. -/
structure Agent where
  core : Option Nat := none
  owner : Byte := 0
  root : Nat := 0
  priv : Bool := false
deriving DecidableEq, Repr

/-- A translated access: the physical address, the leaf, the bytes it maps, and where its A and D are kept. -/
structure Xlated where
  pa : Nat
  entry : Nat
  size : Nat
  ad : Nat
deriving DecidableEq, Repr

/-- The leaf gives what the access needs (R397). -/
def accNeeds (k : AccKind) (e : Nat) : Bool := if k = 0 then pteR e else if k = 3 then pteX e else if k = 4 then pteR e && pteX e else pteW e

/-- The leaf check of R402, steps 1 to 3. -/
def leafCheck (dom : BitVec 64) (ag : Agent) (k : AccKind) (lvl e ea : Nat) : Option XFault :=
  if pteOwner e ≠ 0 ∧ pteOwner e ≠ ag.owner.toNat then some ⟨cOWNER, lvl, ea⟩
  else if (!ag.priv && !(pteU e)) || !(accNeeds k e) then some ⟨cPERMISSION, lvl, ea⟩
  else if !(bitOf dom.toNat (paDev (ptePfn e * 4096))) then some ⟨cTRANSLATION, lvl, ea⟩
  else none

/-- An 8-byte read at the home L2 slice of an entry. -/
def State.homeDw (s : State) (pa : Nat) : Nat := natOfBytes (readSeq s.homeByte pa 8)

/-- The little-endian bytes of a number, as cells. -/
def dwCells (pa n v : Nat) : Cells := cellsAt pa (bytesOf n v)

/-- The entry after A, and for an access that needs W also D, have been set (R403). -/
def adSet (k : AccKind) (e : Nat) : Nat :=
  let e := if pteA e then e else e + 32
  if (k = 1 ∨ k = 2) ∧ !(pteD e) then e + 64 else e

/-- A and D are set at the entry's home (R403); the value then held there. -/
def State.adUpdate (s : State) (k : AccKind) (lvl e ea : Nat) : State × Nat :=
  let a := adAddr lvl e ea
  let v := if a = ea then e else s.homeDw a
  let v' := adSet k v
  if v' = v then (s, v) else (s.homeWrite (dwCells a 8 v'), v')

/-- An entry apart from A and D, and in a group apart from its place there. -/
def adLess (e : Nat) : Nat :=
  let e := e - fld e 6 5 * 32
  if pteCont e then e - fld e 13 10 * 2 ^ 10 else e

/-- A and D of the leaf of a write that was translated earlier are set again, should D have been cleared since: only while the entry still
is the one that was walked (R403, R408). -/
def State.adAgain (s : State) (ad entry : Nat) : State :=
  let v := s.homeDw ad
  if adLess v ≠ adLess entry ∨ adSet accRmw v = v then s else s.homeWrite (dwCells ad 8 (adSet accRmw v))

/-- One leaf enters a core's translation cache of 64 entries, the oldest leaving (R405). -/
def State.tlbAdd (s : State) (t : Tlb) : State :=
  let mine := (s.tlb.filter (fun x => x.core == t.core && !(x.owner == t.owner && x.va == t.va))).take 63
  { s with tlb := t :: mine ++ s.tlb.filter (fun x => x.core != t.core) }

/-- One table entry enters a cluster's walk cache of 32 entries a level (R405). -/
def State.walkAdd (s : State) (w : WalkEnt) : State :=
  let same (x : WalkEnt) : Bool := x.clu == w.clu && x.lvl == w.lvl
  let mine := (s.walks.filter (fun x => same x && !(x.owner == w.owner && x.pre == w.pre))).take 31
  { s with walks := w :: mine ++ s.walks.filter (fun x => !(same x)) }

/-- A table entry that the walk caches of the agent's cluster hold for this level and address. -/
def State.walkHit (s : State) (ag : Agent) (lvl va : Nat) : Option WalkEnt :=
  match ag.core with
  | none => none
  | some c => s.walks.find? (fun w => w.clu == cluOfCore c && w.owner == ag.owner && w.lvl == lvl && w.pre == va / 2 ^ (48 - 9 * lvl))

/-- Nothing waits for the stack of an address: one in HBM has reported ready (R438), or is lost, and answers in another way (R423). -/
def State.stackReady (s : State) (pa : Nat) : Bool :=
  !(isHbm pa) || bitOf (s.die (stackOf pa / 4)).ready.toNat (16 + stackOf pa % 4) || s.deadHome pa

/-- The same for the n bytes at a physical address. -/
def State.regionReady (s : State) (a n : Nat) : Bool := n == 0 || (s.stackReady a && s.stackReady (a + n - 1))

/-- The walk has come to an entry on a stack that is not ready: no fault, the access waits (R438). -/
def XFault.waits (f : XFault) : Bool := f.cause == 0

/-- The walk below one table: `fuel` counts the levels left. -/
def walkFrom (ag : Agent) (k : AccKind) (va : Nat) : Nat → Nat → Nat → State → Except XFault (State × Xlated)
  | 0, _, _, _ => .error ⟨cTRANSLATION, 7, 0⟩
  | fuel + 1, lvl, base, s =>
    let idx := fld va (56 - 9 * lvl) (48 - 9 * lvl)
    let hit := s.walkHit ag lvl va
    let ea := match hit with
      | some w => w.ea
      | none => base + 8 * idx
    let e := match hit with
      | some w => w.entry.toNat
      | none => s.homeDw ea
    if hit.isNone && !(s.stackReady ea) then .error ⟨0, lvl, ea⟩
    else if !(pteV e) || (hit.isNone && (s.homeMarked ea || s.deadHome ea)) then .error ⟨cTRANSLATION, lvl, ea⟩
    else if pteReserved lvl idx e then .error ⟨cRESERVED_BIT, lvl, ea⟩
    else if pteTable e then
      let s := match ag.core, hit with
        | some c, none => s.walkAdd ⟨cluOfCore c, ag.owner, lvl, va / 2 ^ (48 - 9 * lvl), BitVec.ofNat 64 e, ea⟩
        | _, _ => s
      walkFrom ag k va fuel (lvl + 1) (ptePfn e * 4096) s
    else
      match leafCheck s.domain ag k lvl e ea with
      | some f => .error f
      | none =>
        let r := s.adUpdate k lvl e ea
        -- the leaf with A and D as the group's first entry holds them
        let ad := e - fld e 6 5 * 32 + fld r.2 6 5 * 32
        let size := leafSize lvl e
        let s := match ag.core with
          | some c => r.1.tlbAdd { core := c, owner := ag.owner, va := va / size * size, size := size,
                                   entry := BitVec.ofNat 64 ad, lvl := lvl, ea := ea }
          | none => r.1
        .ok (s, ⟨leafPa lvl e va, ad, size, adAddr lvl e ea⟩)

/-- R392: bits [63:57] must all equal bit 56. -/
def canonicalVa (va : Nat) : Bool := let t := fld va 63 56; t == 0 || t == 255

/-- Translate one address (R392, R401, R405): a cached leaf is checked the same way; one with D 0 never serves a write.
(DESIGN CHOICE, log entry 28.) -/
def State.translate (s : State) (ag : Agent) (k : AccKind) (va : Nat) : Except XFault (State × Xlated) :=
  if !(canonicalVa va) then .error ⟨cTRANSLATION, 7, 0⟩
  else
    let va := va % 2 ^ 57
    let usable (t : Tlb) : Bool :=
      some t.core == ag.core && t.owner == ag.owner && decide (t.va ≤ va) && decide (va < t.va + t.size)
      && (k == 0 || k == 3 || pteD t.entry.toNat)
    match s.tlb.find? usable with
    | some t =>
      let e := t.entry.toNat
      match leafCheck s.domain ag k t.lvl e t.ea with
      | some f => .error f
      | none => .ok (s, ⟨leafPa t.lvl e va, e, t.size, adAddr t.lvl e t.ea⟩)
    | none => walkFrom ag k va 5 0 ag.root s

/-- XFSTAT after a fault (R404). -/
def xfstatOf (f : XFault) (k : AccKind) : Dw :=
  BitVec.ofNat 64 (2 ^ 63 + f.lvl * 2 ^ 60 + f.ea % 2 ^ 52 / 8 * 8 + k)

/-! ### Invalidation (R405, R406) -/

/-- Drop cached translations that an invalidation names. -/
def State.invalidate (s : State) (x : Xinv) : State :=
  match x with
  | .all => { s with tlb := [], walks := [] }
  | .owner o => { s with tlb := s.tlb.filter (fun t => t.owner != o), walks := s.walks.filter (fun w => w.owner != o) }
  | .page o vpn =>
    let va := vpn * 4096 % 2 ^ 57
    { s with
      tlb := s.tlb.filter (fun t => !(t.owner == o && decide (t.va ≤ va) && decide (va < t.va + t.size)))
      walks := s.walks.filter (fun w => !(w.owner == o && w.pre == va / 2 ^ (48 - 9 * w.lvl))) }

/-- The leaf of one page leaves every translation cache of the device, whoever cached it (R408 step 2). -/
def State.dropLeaf (s : State) (ea : Nat) : State := { s with tlb := s.tlb.filter (fun t => adAddr t.lvl t.entry.toNat t.ea != ea) }

/-- The caches of a core are emptied when its pair is reset (R405). -/
def State.dropCore (s : State) (core : Nat) : State := { s with tlb := s.tlb.filter (fun t => t.core != core) }

/-! ### Agents (R400) -/

/-- The agent of a context: PTROOT and OWNER of its launch's queue, and its own privilege. -/
def State.ctxAgent (s : State) (core x : Nat) : Agent :=
  let c := s.ctx core x
  let l := s.launch c.launch
  { core := some core, owner := l.owner, root := l.root, priv := c.priv }

/-- The launch processor and the checkpoint streamer translate as supervisor. -/
def supervisorAgent (owner : Byte) (root : Nat) : Agent := { core := none, owner := owner, root := root, priv := true }

end Sys2Proof.Machine
end

