-- ==== Sys2Proof/Machine/DieRegs.lean ====
section
/-! DEFINITION. The registers of clusters, dies and the device (R152 to R156, R345, R359 to R362, R378, R406, R412, R420, R424,
R430, R431, R439) and region 10, where they and the queue tables stand (R388). -/

namespace Sys2Proof.Machine

/-! ### The core map and the test controller (R153 to R156) -/

/-- PCSTATE of physical core p: 0 mapped, 1 spare, 2 retired, 3 held. -/
def Cluster.pc (c : Cluster) (p : Nat) : Nat := fld c.pcstate.toNat (2 * p + 1) (2 * p)
def Cluster.setPc (c : Cluster) (p v : Nat) : Cluster :=
  { c with pcstate := BitVec.ofNat 64 (c.pcstate.toNat - c.pc p * 2 ^ (2 * p) + v * 2 ^ (2 * p)) }

/-- The entry of logical core n in a pair of map registers (R154). -/
def mapEntry (lo hi n : Nat) : Nat := if n < 12 then fld lo (5 * n + 4) (5 * n) else fld hi (5 * (n - 12) + 4) (5 * (n - 12))
def Cluster.entry (c : Cluster) (n : Nat) : Nat := mapEntry c.cmapLo.toNat c.cmapHi.toNat n

/-- Entry n becomes v. -/
def Cluster.setEntry (c : Cluster) (n v : Nat) : Cluster :=
  if n < 12 then { c with cmapLo := BitVec.ofNat 64 (c.cmapLo.toNat - c.entry n * 2 ^ (5 * n) + v * 2 ^ (5 * n)) }
  else { c with cmapHi := BitVec.ofNat 64 (c.cmapHi.toNat - c.entry n * 2 ^ (5 * (n - 12)) + v * 2 ^ (5 * (n - 12))) }

/-- No value stands twice in the list, 0x1F apart. -/
def noDup : List Nat → Bool
  | [] => true
  | e :: t => (e == 31 || !(t.contains e)) && noDup t

/-- The map of these registers is valid (R154). -/
def Cluster.mapOk (c : Cluster) (lo hi : Nat) : Bool :=
  let es := (List.range 16).map (mapEntry lo hi)
  es.all (fun e => decide (e ≤ 16) || e == 31)
    && noDup es
    && es.all (fun e => e == 31 || c.pc e != 2)
    && (List.range 8).all (fun m =>
      let a := es.getD (2 * m) 31; let b := es.getD (2 * m + 1) 31
      decide (16 ≤ a) || decide (16 ≤ b) || a / 2 == b / 2)

/-- A write of CMAPLO or CMAPHI (R154): the reserved bits stay 0; an invalid map is ignored as a whole and sets ERR. PCSTATE
stays as it is, so a map that names spare core 16 places no group there (DESIGN CHOICE, log entry 87). -/
def State.cmapWrite (s : State) (clu : Nat) (hi : Bool) (v : Dw) : State :=
  let c := s.clu clu
  let lo' := if hi then c.cmapLo.toNat else v.toNat % 2 ^ 60
  let hi' := if hi then v.toNat % 2 ^ 20 else c.cmapHi.toNat
  if c.mapOk lo' hi' then s.setClu clu { c with cmapLo := BitVec.ofNat 64 lo', cmapHi := BitVec.ofNat 64 hi' }
  else s.setClu clu { c with terr := true }

/-- The logical core that names physical core p in the running map. -/
def Cluster.logicalOf (c : Cluster) (p : Nat) : Option Nat := (List.range 16).find? (fun n => c.entry n == p)

/-- The twin of logical core n is absent from the map (R47, R48). -/
def Cluster.loneOf (c : Cluster) (n : Nat) : Bool := c.entry (if n % 2 = 0 then n + 1 else n - 1) == 31

/-- The core under test of a cluster. -/
def Cluster.testCore (clu : Nat) (c : Cluster) : Nat := coreKey clu c.tcore

def TestState.code : TestState → Nat
  | .idle => 0 | .draining => 1 | .held => 2 | .running => 3 | .pass => 4 | .fail => 5 | .aborted => 6

/-- A refused command sets ERR. -/
def State.testErr (s : State) (clu : Nat) : State := s.modClu clu (fun c => { c with terr := true })

/-- The core under test returns to the PCSTATE it held before HOLD. -/
def Cluster.giveBack (c : Cluster) : Cluster := c.setPc c.tcore c.before

/-- HOLD (R155): a spare core is held at once; a mapped core once its last context has ended. -/
def State.testHoldCmd (s : State) (clu : Nat) : State :=
  let c := s.clu clu
  let p := c.ctlCore
  let ok := (c.tstate == .idle || c.tstate == .pass || c.tstate == .fail || c.tstate == .aborted) && decide (p ≤ 16)
  let c' := if c.tstate = .pass then c.giveBack else c
  if ok ∧ (c'.pc p = 0 ∨ c'.pc p = 1) then
    let c' := { c' with tcore := p, before := c'.pc p }
    if c'.pc p = 1 then s.setClu clu { c'.setPc p 3 with tstate := .held }
    else s.setClu clu { c' with tstate := .draining }
  else s.testErr clu

/-- START (R155). -/
def State.testStartCmd (s : State) (clu : Nat) : State :=
  let c := s.clu clu
  if c.tstate = .held then s.setClu clu { c with tstate := .running, tstart := s.time, elapsed := 0 } else s.testErr clu

/-- A core starts anew (R61, R156, R405): promotion requests that it has not acknowledged stay unanswered (R282). -/
def State.resetCore (s : State) (core : Nat) : State := (s.modCore core (fun k => { preqs := k.preqs })).dropCore core

/-- The abort of a test (R156): the pattern stops, the core is reset and returned, STATE is aborted. A core that still drains
runs its launch on (DEDUCED, log entry 110). -/
def State.abortTest (s : State) (clu : Nat) : State :=
  let c := s.clu clu
  let s := if c.tstate = .draining then s else s.resetCore (Cluster.testCore clu c)
  let el := if c.tstate = .running then min 200 (s.time - c.tstart) else c.elapsed
  s.setClu clu { c.giveBack with tstate := .aborted, elapsed := el }

/-- ABORT (R155). -/
def State.testAbortCmd (s : State) (clu : Nat) : State :=
  let c := s.clu clu
  if c.tstate = .draining ∨ c.tstate = .held ∨ c.tstate = .running then s.abortTest clu else s.testErr clu

/-- RELEASE (R155). -/
def State.testReleaseCmd (s : State) (clu : Nat) : State :=
  let c := s.clu clu
  if c.tstate = .held ∨ c.tstate = .pass then s.setClu clu { c.giveBack with tstate := .idle } else s.testErr clu

/-- ABORTPRI and PCORE of TESTCTL take the written values. -/
def State.testFields (s : State) (clu : Nat) (v : Dw) : State :=
  s.modClu clu (fun c => { c with abortPri := fld v.toNat 13 12, ctlCore := fld v.toNat 8 4 })

/-- A write of TESTCTL (R155). -/
def State.testctlWrite (s : State) (clu : Nat) (v : Dw) : State :=
  let s := s.testFields clu v
  match v.toNat % 8 with
  | 1 => s.testHoldCmd clu
  | 2 => s.testStartCmd clu
  | 3 => s.testAbortCmd clu
  | 4 => s.testReleaseCmd clu
  | _ => s

/-- TESTSTAT (R155). -/
def State.teststat (s : State) (clu : Nat) : Nat :=
  let c := s.clu clu
  let el := if c.tstate = .running then min 200 (s.time - c.tstart) else c.elapsed
  el % 2 ^ 16 * 2 ^ 16 + c.tcore % 32 * 16 + (if c.terr then 8 else 0) + c.tstate.code

/-- A register of a cluster, 0x080 to 0x086, as it reads. -/
def State.cluReg (s : State) (clu n : Nat) : Dw :=
  let c := s.clu clu
  match n with
  | 0x80 => BitVec.ofNat 64 (c.abortPri * 2 ^ 12 + c.ctlCore * 16)
  | 0x81 => BitVec.ofNat 64 (s.teststat clu)
  | 0x82 => c.sig
  | 0x83 => c.exp
  | 0x84 => c.cmapLo
  | 0x85 => c.cmapHi
  | 0x86 => c.pcstate
  | _ => 0

/-- A write of a register of a cluster. -/
def State.cluRegWrite (s : State) (clu n : Nat) (v : Dw) : State :=
  match n with
  | 0x80 => s.testctlWrite clu v
  | 0x81 => if bitOf v.toNat 3 then s.modClu clu (fun c => { c with terr := false }) else s
  | 0x83 => s.modClu clu (fun c => { c with exp := v })
  | 0x84 => s.cmapWrite clu false v
  | 0x85 => s.cmapWrite clu true v
  | _ => s

/-! ### Registers of a die and of the device -/

/-- Bits of one flag of the four islands of a die. -/
def Die.islandBits (d : Die) (f : Island → Bool) : Nat :=
  (List.range 4).foldl (fun a i => if f (Sp.get {} d.islands i) then a + 2 ^ i else a) 0

/-- PWRSTAT (R430). -/
def Die.pwrstat (d : Die) : Nat :=
  min d.sags 0xFFFF * 2 ^ 32 + min d.kills 0xFFFF * 2 ^ 16 + d.islandBits Island.hard * 2 ^ 12 + d.islandBits Island.soft * 2 ^ 8
    + d.islandBits Island.oc * 16

def SuspState.code : SuspState → Nat
  | .running => 0 | .suspending => 1 | .suspended => 2 | .resuming => 3

/-- Region 10 of this device begins here (R393), and one die's block (R388). -/
def region10 : Nat := Config.devId * 2 ^ 46 + 2 * 2 ^ 44
def dieBlock (die : Nat) : Nat := region10 + die * 0x4000000

/-- A register of a die or of the device, 0x088 to 0x091, as it reads. -/
def State.dieReg (s : State) (die n : Nat) : Dw :=
  let d := s.die die
  match n with
  | 0x88 => d.ringBase
  | 0x89 => BitVec.ofNat 64 (dieBlock die)
  | 0x8A => d.quantum
  | 0x8B => if s.xinvs.isEmpty then 0 else 1
  | 0x8C => BitVec.ofNat 64 (min d.div 0xFFFF * 2 ^ 48 + min d.ue 0xFFFF * 2 ^ 32 + min d.ce 0xFFFFFFFF)
  | 0x8D => BitVec.ofNat 64 d.pwrstat
  | 0x8E => BitVec.ofNat 64 (s.suspBase * 4096 + s.susp.code * 256 + (if s.suspDomain then 16 else 0))
  | 0x8F => s.fotab
  | 0x90 => BitVec.ofNat 64 (d.beat % 2 ^ 32 * 2 ^ 32 + d.lost.toNat * 16)
  | 0x91 => d.ready.setWidth 64
  | _ => 0

/-- The 16 places of the invalidation queue are taken (R406). -/
def State.xinvFull (s : State) : Bool := decide (16 ≤ s.xinvs.length)

/-- The oldest invalidation has reached every cache. -/
def State.xinvPop (s : State) : State :=
  match s.xinvs with
  | [] => s
  | x :: t => { s with xinvs := t }.invalidate x

/-- XINV is written (R406). A write that still finds 16 queued takes its place once the oldest has completed: writes of one bundle beyond
the 16, and those of agents that have no core to freeze. (DESIGN CHOICE, log entry 98.) -/
def State.xinvWrite (s : State) (v : Nat) : State :=
  let o := BitVec.ofNat 8 (fld v 11 4)
  let s := if s.xinvFull ∧ fld v 3 2 ≠ 3 then s.xinvPop else s
  match fld v 3 2 with
  | 0 => { s with xinvs := s.xinvs ++ [.all] }
  | 1 => { s with xinvs := s.xinvs ++ [.owner o] }
  | 2 => { s with xinvs := s.xinvs ++ [.page o (fld v 63 12)] }
  | _ => s

/-- SUSPEND begins (R432 step 1): allowed in state 0. -/
def State.beginSuspend (s : State) (domain : Bool) : State :=
  if s.susp = .running then
    let s := if domain then s.sendOrbit .suspend else s
    { s with susp := .suspending }
  else s

/-- RESUME begins (R435): allowed in state 2. The compute dies are powered, and the Orbit ports go on from their saved numbers. A hard trip
of the time before has come to its end with the compute dies gated (R433; DEDUCED, log entry 50). -/
def State.beginResume (s : State) (domain : Bool) : State :=
  if s.susp = .suspended then
    let s : State := { s with
      susp := .resuming, powerOff := false, hardTrip := false, hardAt := 0, orbitTx := s.orbitKept.1, orbitRx := s.orbitKept.2 }
    if domain then s.sendOrbit .resume else s
  else s

/-- A write of SUSPCTL (R431). -/
def State.suspctlWrite (s : State) (v : Nat) : State :=
  let s := { s with suspBase := fld v 51 12, suspDomain := bitOf v 4 }
  match v % 8 with
  | 1 => s.beginSuspend (bitOf v 4)
  | 2 => s.beginResume (bitOf v 4)
  | _ => s

/-- A write of a register of a die or of the device. Fields that are RO keep their values. (DEDUCED, log entry 70.) -/
def State.dieRegWrite (s : State) (die n : Nat) (v : Dw) : State :=
  let x := v.toNat
  match n with
  | 0x88 => if x % 64 = 0 then s.modDie die (fun d => { d with ringBase := v }) else s
  | 0x8A => s.modDie die (fun d => { d with quantum := v })
  | 0x8B => s.xinvWrite x
  | 0x8C => s.modDie die (fun d => { d with div := fld x 63 48, ue := fld x 47 32, ce := fld x 31 0 })
  | 0x8D => s.modDie die (fun d => { d with sags := fld x 47 32, kills := fld x 31 16 })
  | 0x8E => s.suspctlWrite x
  | 0x8F => { s with fotab := BitVec.ofNat 64 (fld x 51 12 * 4096 + fld x 8 0) }
  | _ => s

/-! ### Queue tables (R359 to R361) -/

/-- Dword i of the descriptor of queue q. -/
def Die.qdw (d : Die) (q i : Nat) : Nat := (Sp.get 0 d.qdesc (8 * q + i)).toNat
def Die.setQdw (d : Die) (q i : Nat) (v : Nat) : Die := { d with qdesc := Sp.set 0 d.qdesc (8 * q + i) (BitVec.ofNat 64 v) }

/-- The notify register of a queue holds v after a write (R361): an index at or above the current one is taken, a lower one
ignored; a stalled slot is tried again. -/
def State.notifyWrite (s : State) (die q : Nat) (v : Dw) : State :=
  s.modDie die (fun d =>
    let qs := Sp.get {} d.qstate q
    let d := { d with notify := Sp.set 0 d.notify q v }
    if qs.widx ≤ v.toNat then
      let d := d.setQdw q 4 (d.qdw q 4 / 2 ^ 32 * 2 ^ 32 + v.toNat % 2 ^ 32)
      { d with qstate := Sp.set {} d.qstate q { qs with widx := v.toNat, stalled := false } }
    else { d with qstate := Sp.set {} d.qstate q { qs with stalled := false } })

/-! ### Region 10 (R388) -/

/-- What stands at an offset of region 10: the dword of a queue descriptor, a notify register, a die register, a cluster
register, or nothing. -/
inductive RegPlace where
  | desc (die q i : Nat)
  | notify (die q : Nat)
  | die (die n : Nat)
  | clu (clu n : Nat)
  | none
deriving DecidableEq, Repr

def regPlace (off : Nat) : RegPlace :=
  let die := off / 0x4000000
  let o := off % 0x4000000 / 8 * 8
  if 4 ≤ die then .none
  else if o < 0x4000 then .desc die (o / 64) (o % 64 / 8)
  else if o < 0x4800 then .notify die ((o - 0x4000) / 8)
  else if 0x10040 ≤ o ∧ o ≤ 0x10088 then .die die (0x80 + (o - 0x10000) / 8)
  else if 0x20000 ≤ o ∧ o < 0x30000 ∧ o % 0x1000 < 56 then .clu (die * 16 + (o - 0x20000) / 0x1000) (0x80 + o % 0x1000 / 8)
  else .none

/-- The dword at a place. -/
def State.regRead (s : State) (p : RegPlace) : Dw :=
  match p with
  | .desc d q i => BitVec.ofNat 64 ((s.die d).qdw q i)
  | .notify d q => Sp.get 0 (s.die d).notify q
  | .die d n => s.dieReg d n
  | .clu c n => s.cluReg c n
  | .none => 0

/-- A write of the whole dword at a place. -/
def State.regWrite (s : State) (p : RegPlace) (v : Dw) : State :=
  match p with
  | .desc d q i => s.modDie d (fun x => x.setQdw q i v.toNat)
  | .notify d q => s.notifyWrite d q v
  | .die d n => s.dieRegWrite d n v
  | .clu c n => s.cluRegWrite c n v
  | .none => s

/-- What the bytes that a narrow write does not name keep (R388): a W1C or WO field keeps its value, which no write of 0
changes. -/
def State.regKeep (s : State) (p : RegPlace) : Nat :=
  match p with
  | .clu _ 0x81 => 0
  | .die _ 0x8B => 0
  | p => (s.regRead p).toNat

/-- The dword after `n` bytes at byte `o` of it take the low bytes of v. -/
def mergeBytes (old o n v : Nat) : Nat := old - fld old (8 * (o + n) - 1) (8 * o) * 2 ^ (8 * o) + v % 2 ^ (8 * n) * 2 ^ (8 * o)

/-- A write of n bytes at an offset of region 10. A notify register takes any width (R361); every other place takes aligned
accesses of 4 and 8 bytes, and ignores others (R388). -/
def State.region10Write (s : State) (off n v : Nat) : State :=
  let p := regPlace off
  let o := off % 8
  let v' := BitVec.ofNat 64 (mergeBytes (s.regKeep p) o n v)
  let any : Bool := match p with
    | .notify _ _ => true
    | _ => false
  if decide (o + n ≤ 8) && (((n == 4 || n == 8) && off % n == 0) || any) then s.regWrite p v' else s

/-- A read of n bytes at an offset of region 10; a read of another size or alignment returns all ones (R388).
(DEDUCED, log entry 54.) -/
def State.region10Read (s : State) (off n : Nat) : Dw :=
  if (n = 4 ∨ n = 8) ∧ off % n = 0 then BitVec.ofNat 64 (fld (s.regRead (regPlace off)).toNat (8 * (off % 8 + n) - 1) (8 * (off % 8)))
  else BitVec.ofNat 64 (2 ^ (8 * min n 8) - 1)

end Sys2Proof.Machine
end

