-- ==== Sys2Proof/Machine/Order.lean ====
section
/-! DEFINITION. Stores as they take effect, stores and element steps on their way (R272, R309), releases and acquires (R266, R273,
R277 to R280). -/

namespace Sys2Proof.Machine

/-! ### Key ids (R399) -/

/-- Data under the key id of a leaf can be stored: plain text, or a key is installed. -/
def State.hasKey (s : State) (key : Nat) : Bool := key == 0 || bitOf s.keys.toNat key

/-- The page of an address was last written under another key id than the leaf's. -/
def State.mixedAt (s : State) (pa entry : Nat) : Bool :=
  match Sp.find? s.pageKeys (pa / 4096) with
  | some k => k != pteKey entry
  | none => false

/-- The pages of HBM that cells lie in are written under a key id. -/
def State.keyPages (s : State) (key : Nat) (cs : Cells) : State :=
  { s with pageKeys := (((cs.filter (fun c => isHbm c.1)).map (fun c => c.1 / 4096)).eraseDups).foldl (fun m p => Sp.put m p key) s.pageKeys }

/-- The granules of the 128-byte lines that cells lie in. -/
def lineGranules (cs : Cells) : List Nat :=
  ((cs.map (fun c => c.1 / 128)).eraseDups).flatMap (fun l => [4 * l, 4 * l + 1, 4 * l + 2, 4 * l + 3])

/-! ### Stores as they take effect -/

/-- Bytes stored to region 10 of the device act on its registers, dword by dword (R361, R388). -/
def State.storeRegs (s : State) (cs : Cells) : State :=
  (((cs.map (fun c => c.1 / 8)).eraseDups).map (fun u => cs.filter (fun c => c.1 / 8 == u))).foldl (fun a g =>
    match g with
    | [] => a
    | c :: _ => a.region10Write (c.1 % 2 ^ 44) g.length (natOfBytes (g.map (·.2)))) s

/-- One byte written at its home memory replaces that byte of the device's L2 copy, if there is one, and drops its tag. -/
def State.l2Replace (s : State) (c : Nat × Byte) : State :=
  let s := { s with tags := dropTag s.tags c.1 }
  if (Sp.find? s.l2 (c.1 / 128)).isSome then
    s.modL2 (c.1 / 128) (fun l => { l with data := lineSet l.data (c.1 % 128) c.2, dirty := maskClear l.dirty (c.1 % 128) })
  else s

/-- A mark is set or cleared in home memory, and in the L2's line if there is one. -/
def State.bothMark (s : State) (on : Bool) (g : Nat) : State := { s.homeMark on g with poison := setMark s.poison g on }

/-- A store to an uncached page is performed at the home memory (R398). (DESIGN CHOICE, log entry 77.) -/
def State.uncStore (s : State) (cs : Cells) : State :=
  let cs := cs.filter (fun c => !(s.lostHome c.1))
  ((granulesOf cs).filter (covers cs)).foldl (State.bothMark · false) (cs.foldl State.l2Replace (s.memWrite cs))

/-- A byte as an uncached access reads it: at the home memory of an off-device address, else at its home slice. -/
def State.uncByte (s : State) (pa : Nat) : Byte := if paOff pa then Memory.read s.mem pa else s.homeByte pa

/-- An agent outside the L1s stands at the home of an address off the device (R265), and an uncached leaf is accessed there (R398). -/
def atHome (entry pa : Nat) : Bool := pteCA entry == 2 || paOff pa

/-- A granule is marked at its home, or at its home slice. -/
def State.markAs (unc : Bool) (s : State) (g : Nat) : State := if unc then s.bothMark true g else s.homeMark true g

/-- A granule is marked as an agent outside the L1s writes it under a leaf. -/
def State.agentMark (entry : Nat) (s : State) (g : Nat) : State := s.markAs (atHome entry (32 * g)) g

/-- A write outside the L1s under the leaf that maps its bytes, at their home memory or at the home slice (R388, R398, R399).
(DESIGN CHOICE, log entry 19.) -/
def State.leafStore (s : State) (unc : Bool) (entry : Nat) (cs : Cells) : State :=
  if cs.any (fun c => paReg c.1) then s.storeRegs cs
  else
    let s := s.keyPages (pteKey entry) cs
    let s := if unc then s.uncStore cs else s.homeStore cs
    if s.hasKey (pteKey entry) then s else (lineGranules cs).foldl (State.markAs unc) s

/-- A write of an agent outside the L1s. -/
def State.agentStore (s : State) (entry : Nat) (cs : Cells) : State := s.leafStore (cs.any (fun c => atHome entry c.1)) entry cs

/-- A granule that an agent outside the L1s reads under a leaf is poisoned (R399, R409, R423, R434). -/
def State.agentMarked (s : State) (entry pa : Nat) : Bool :=
  !(paReg pa) && (!(s.hasKey (pteKey entry)) || s.deadHome pa ||
    (if paOff pa then s.poison.contains (pa / 32) else s.homeMarked pa))

/-- The value of a byte read outside the L1s under a leaf is open: its page was written under another key id, no key is installed, or its home
does not answer (R399, R423). -/
def State.openByte (s : State) (entry pa : Nat) : Bool := s.mixedAt pa entry || !(s.hasKey (pteKey entry)) || s.deadHome pa

/-- A byte that an agent outside the L1s reads under a leaf (R388, R398, R399); `n` is a fresh free-value number. -/
def State.agentByte (s : State) (entry n pa : Nat) : Byte :=
  if paReg pa then BitVec.ofNat 8 ((s.region10Read (pa % 2 ^ 44 / 8 * 8) 8).toNat / 256 ^ (pa % 8))
  else if s.openByte entry pa then Config.mixedKeyByte n
  else s.uncByte pa

/-- One part of a store of a core takes effect (R398, R399). -/
def State.storePart (core : Nat) (s : State) (p : StorePart) : State :=
  if p.reg then s.storeRegs p.bytes
  else
    let key := p.key.getD 0
    let s := s.keyPages key p.bytes
    let s := if p.unc then s.uncStore p.bytes else s.l1Store core p.hint p.through p.bytes
    if s.hasKey key then s else (lineGranules p.bytes).foldl (State.l1Mark core true true) s

/-- The bytes of a store, in order. -/
def StoreAcc.cells (a : StoreAcc) : Cells := a.parts.flatMap (·.bytes)

/-- The bytes of a store reach memory or the scratchpad they name. -/
def State.storeBytes (s : State) (core : Nat) (a : StoreAcc) : State :=
  if a.space ≠ 0 then s.scratchWrite a.core a.cells else a.parts.foldl (State.storePart core) s

/-- The store writes some byte of a range. -/
def StoreAcc.touches (a : StoreAcc) (space core addr n : Nat) : Bool :=
  a.space == space && (space == 0 || a.core == core) && a.cells.any (fun c => decide (addr ≤ c.1) && decide (c.1 < addr + n))

/-- Two stores of one context write a byte in common, so that they arrive in their order (R269, R272). -/
def s2Clash (e f : Nat × StoreAcc) : Bool :=
  e.1 == f.1 && e.2.ctx == f.2.ctx && e.2.core == f.2.core && f.2.cells.any (fun c => e.2.cells.any (fun d => c.1 == d.1))

/-- The store that must arrive first for the k-th to arrive. -/
def s2First (l : List (Nat × StoreAcc)) : Nat → Nat → Nat
  | 0, k => k
  | fuel + 1, k =>
    match l[k]? with
    | none => k
    | some e =>
      match (l.take k).findIdx? (s2Clash e) with
      | some j => s2First l fuel j
      | none => k

/-- A space-2 store on its way reaches its core: the k-th, or an earlier one of its context that it must follow (R269, R272). A release
that it makes has taken its generation when it left. -/
def State.arriveS2 (s : State) (k : Nat) : State :=
  let j := s2First s.s2 k k
  match s.s2[j]? with
  | none => s
  | some e => { s with s2 := s.s2.eraseIdx j }.scratchWrite e.2.core e.2.cells

/-- The stores of a context on their way to bytes of another core's scratchpad arrive before its own access to them (R225). -/
def State.flushBytes (s : State) (core x target addr n : Nat) : State :=
  s.s2.foldl (fun a _ =>
    match a.s2.findIdx? (fun e => e.1 == core && e.2.ctx == x && e.2.touches 2 target addr n) with
    | some k => a.arriveS2 k
    | none => a) s

/-- Every space-2 store of a core that is still on its way arrives. -/
def State.flushS2 (s : State) (core : Nat) : State :=
  let mine := s.s2.filter (fun e => e.1 == core)
  mine.foldl (fun a e => a.scratchWrite e.2.core e.2.cells) { s with s2 := s.s2.filter (fun e => e.1 != core) }

/-- One element step takes effect at its segment, indivisibly (R240, R309). -/
def SaRow.step (r : SaRow) (e : Nat) (q : Int) (sat nan : Bool) : SaRow :=
  if !r.valid || decide (fld r.header.toNat 12 0 ≤ e) then { r with err := true }
  else
    let xo := Sp.get 0 r.elems e
    let xn := sat40 (xo + q)
    { r with
      satf := r.satf || sat || decide (xn ≠ xo + q)
      nanf := r.nanf || nan
      t := toSigned 72 (wrapInt 72 (r.t + (xn - xo)))
      sq := wrapInt 96 ((r.sq : Int) + xn * xn - xo * xo)
      elems := Sp.set 0 r.elems e xn }

def State.saRow (s : State) (core row : Nat) : SaRow := Sp.get {} (s.core core).sa row
def State.setSaRow (s : State) (core row : Nat) (r : SaRow) : State :=
  s.modCore core (fun c => { c with sa := Sp.put c.sa row r })

/-- A change of a row, in the store of the core and in its upper twin's (R45, R319). -/
def State.modSaRow (s : State) (core row : Nat) (f : SaRow → SaRow) : State :=
  s.modCore core (fun k => k.onTwin (fun k => { k with sa := Sp.put k.sa row (f (Sp.get {} k.sa row)) }))

/-- An element step as its segment takes it. -/
def SaRow.take (r : SaRow) (x : SaStep) : SaRow :=
  let r := r.step x.elem x.add x.sat x.nan
  if x.poison ∧ r.valid then { r with poison := true } else r

/-- A step that reaches a tidelocked pair is applied by both twins (R319). -/
def State.applyStep (s : State) (x : SaStep) : State := s.modSaRow x.core x.row (·.take x)

/-- The k-th remote element step arrives (R309: steps of one core to one segment arrive in order, so every earlier one of the
same core to the same segment arrives first). -/
def State.arriveSa (s : State) (k : Nat) : State :=
  match s.saSteps[k]? with
  | none => s
  | some x =>
    let same (y : SaStep) : Bool := y.src == x.src && y.core == x.core && y.row == x.row
    match s.saSteps.find? same with
    | none => s
    | some y => { s with saSteps := s.saSteps.erase y }.applyStep y

/-- Every element step of a core that is still on its way arrives. -/
def State.flushSa (s : State) (core : Nat) : State :=
  (s.saSteps.filter (fun x => x.src == core)).foldl State.applyStep
    { s with saSteps := s.saSteps.filter (fun x => x.src != core) }

/-- Every element step toward a core arrives (R318). -/
def State.flushSaTo (s : State) (core : Nat) : State :=
  (s.saSteps.filter (fun x => x.core == core)).foldl State.applyStep
    { s with saSteps := s.saSteps.filter (fun x => x.core != core) }

/-- What a core has on its way to other cores arrives: space-2 stores, then element steps (R273). -/
def State.arriveAll (s : State) (core : Nat) : State := (s.flushS2 core).flushSa core

/-- A core drains to generation g: what its releases order, on its way to other cores included, so that an acknowledged release is as one
at DEV (R278, R281). -/
def State.drain (s : State) (core g : Nat) : State := (s.arriveAll core).drainTo core g

/-- A full promotion log drains to its oldest entry (R279). -/
def State.logRoom (s : State) (core : Nat) : State :=
  let c := s.core core
  if 64 ≤ c.log.length then
    match c.log with
    | e :: _ => (s.drain core e.gen).modCore core (fun c => { c with drain := none })
    | [] => s
  else s

/-- A release of a context at a scope (R220 code) takes a generation (R277): below DEV it enters the promotion log, which holds 64
entries, and a log that reaches 64 starts a drain (R279); at DEV and SYS the core drains to it, and at SYS off-device lines are
written back. -/
def State.takeGen (s : State) (core ctx scope : Nat) (line : Option Nat) : State :=
  if scope < 3 then
    let s := s.logRoom core
    let c := s.core core
    let log := c.log ++ [{ gen := c.gen, scope := scope, ctx := ctx, line := line }]
    let c := { c with gen := c.gen + 1, log := log }
    let c :=
      if log.length = 64 ∧ c.drain.isNone then
        { c with drain := log.head?.map (·.gen), ovfd := min (c.ovfd + 1) 0xFFFF }
      else c
    s.setCore core c
  else
    let g := (s.core core).gen
    let s := s.drain core g
    let s := if scope = 4 then s.l2WriteBack else s
    s.modCore core (fun c => { c with gen := g + 1 })

/-- A store of a core takes effect, with its release: a DEV or SYS release comes before the synchronising write (R278), a
narrower one takes the generation of the line it makes dirty (R277). -/
def State.commitStore (s : State) (core : Nat) (a : StoreAcc) : State :=
  match a.rel with
  | none => s.storeBytes core a
  | some sc =>
    if 3 ≤ sc then (s.takeGen core a.ctx sc none).storeBytes core a
    else
      let g := (s.core core).gen
      let s := s.storeBytes core a
      if a.space = 0 then
        (s.putTags core g a.cells).takeGen core a.ctx sc (a.cells.head?.map (fun c => c.1 / 128))
      else s.takeGen core a.ctx sc none

/-! ### Reads of other cores' scratchpads by the array (R212) -/

/-- The stores held for the context, oldest first: those of a loop that a trap has set aside, then its own. -/
def Ctx.heldStores (c : Ctx) : List StoreAcc :=
  ((c.saved.map (fun v => v.loops.ml.held)).getD [] ++ c.loops.ml.held).map (·.2)

/-- A scratchpad under a held store. -/
def Core.overlay (k : Core) (h : StoreAcc) : Core :=
  { k with scratch := Memory.writes k.scratch h.cells, scratchPoison := clearMarks k.scratchPoison h.cells }

/-- The state as a context's own reads of scratchpads see it: its held stores stand over them (R136, R225). -/
def State.viewOf (s : State) (core x : Nat) : State :=
  ((s.ctx core x).heldStores.filter (fun h => h.space != 0)).foldl (fun a h => a.modCore h.core (fun k => k.overlay h)) s

/-- A scratchpad under bytes that an operation has read before, with the marks they had. -/
def Core.underKept (k : Core) (bs : List Kept) : Core :=
  let clean := k.scratchPoison.filter (fun g => !(bs.any (fun b => b.off / 32 == g)))
  { k with
    scratch := Memory.writes k.scratch (bs.map (fun b => (b.off, b.byte)))
    scratchPoison := ((bs.filter (·.mark)).map (fun b => b.off / 32)).foldl addMark clean }

/-- Scratchpads as an operation of the array reads them: what it has read before stands over them. -/
def State.underKept (s : State) (e : MEnt) : State :=
  ((e.kept.map (·.core)).eraseDups).foldl (fun a c => a.modCore c (fun k => k.underKept (e.kept.filter (fun b => b.core == c)))) s

/-- An operation reads the bytes of its remote panels that `p` names and that it has not read yet, as the state shows them. -/
def MEnt.keep (e : MEnt) (s : State) (p : Nat → Nat → Bool) : MEnt :=
  let bytes := e.panels.flatMap (fun q => (List.range q.2.2).map (fun i => (q.1, q.2.1 + i)))
  let new := bytes.eraseDups.filter (fun b => p b.1 b.2 && !(e.kept.any (fun k => k.core == b.1 && k.off == b.2)))
  { e with kept := e.kept ++ new.map (fun b =>
      ⟨b.1, b.2, s.scratchByte b.1 b.2, (s.core b.1).scratchPoison.contains (b.2 / 32)⟩) }

/-- Some operation of the context in the array or its queue reads another core's scratchpad. -/
def Core.readsRemote (k : Core) (x : Nat) : Bool :=
  k.mq.any (fun e => e.ctx == x && !e.panels.isEmpty) || k.mrun.any (fun r => r.ent.ctx == x && !r.ent.panels.isEmpty)

/-- A change of the context's operations in the array and its queue. -/
def Core.modOps (k : Core) (x : Nat) (f : MEnt → MEnt) : Core :=
  let g (e : MEnt) : MEnt := if e.ctx = x then f e else e
  { k with mq := k.mq.map g, mrun := k.mrun.map (fun r => { r with ent := g r.ent }) }

/-- The context's operations read the bytes of their remote panels that `p` names now: they are placed at their dispatching bundles, before
what the context does next (R212; DEDUCED, log entry 126). -/
def State.keepOps (s : State) (core x : Nat) (p : Nat → Nat → Bool) : State :=
  if (s.core core).readsRemote x then s.modCore core (fun k => k.modOps x (fun e => e.keep (s.viewOf core x) p)) else s

/-- Before a store of the context to a scratchpad: its operations have read those bytes, after its own earlier stores to them
(R212, R225). -/
def State.keepUnder (s : State) (core x target : Nat) (cs : Cells) : State :=
  if (s.core core).readsRemote x then
    (cs.foldl (fun a c => a.flushBytes core x target c.1 1) s).keepOps core x (fun k o => k == target && cs.any (fun c => c.1 == o))
  else s

/-- Before a release at a scope (R220 code), stores and adds of its core on their way to other cores arrive, at CORE and wider, and the
operations of the context in the array make their reads of other cores: another context that the scope covers may go on from the release to
those bytes (R212, R266 to R269, R273). -/
def State.beforeRelease (s : State) (core ctx scope : Nat) : State :=
  if 1 ≤ scope then (s.arriveAll core).keepOps core ctx (fun _ _ => true) else s

/-- A release of a context at a scope (R266). -/
def State.release (s : State) (core ctx scope : Nat) (line : Option Nat) : State := (s.beforeRelease core ctx scope).takeGen core ctx scope line

/-- An acquire at a scope (R273). -/
def State.acquire (s : State) (core scope : Nat) : State :=
  if scope < 3 then s
  else
    let s := s.modCore core Core.dropClean
    if scope = 4 then s.l2Invalidate else s

/-- The promotion log of the core is full (R279). -/
def Core.logFull (c : Core) : Bool := decide (64 ≤ c.log.length)

/-- Write back and invalidate the whole L1 of a core; its log drains, so that DRAINED becomes GEN − 1 (R274). -/
def State.flushL1 (s : State) (core : Nat) : State :=
  let old := (s.core core).drained
  let s := s.drainTo core (s.core core).gen
  s.modCore core (fun c => { c with l1 := [], drained := max old (c.gen - 1) })

/-- The DEV release of a whole core, at a kernel end or a pre-emption (R274, R381): stores and adds on their way arrive, its log
drains and its L1 is emptied. It takes no generation of its own (R277). (DEDUCED, log entry 31.) -/
def State.kernelEndRelease (s : State) (core : Nat) : State :=
  ((s.arriveAll core).flushL1 core).modCore core (fun c => { c with drain := none })

/-! ### Virtual memory outside the L1s -/

/-- A read of bytes of virtual memory at their homes; each is translated on its own. A stack that is not ready is awaited, with cause 0
(R438). -/
def State.readV (ag : Agent) (k : AccKind) : Nat → Nat → State → Except XFault (State × List Byte)
  | _, 0, s => .ok (s, [])
  | va, n + 1, s =>
    match s.translate ag k va with
    | .error f => .error f
    | .ok (s, x) =>
      if !(s.stackReady x.pa) then .error ⟨0, 7, 0⟩ else
      let b := s.agentByte x.entry s.freeCtr x.pa
      let s := if s.openByte x.entry x.pa then s.fresh.2 else s
      match State.readV ag k (va + 1) n s with
      | .error f => .error f
      | .ok (s', bs) => .ok (s', b :: bs)

/-- The physical cells of bytes written to virtual addresses, each with its leaf; a stack that is not ready is awaited, with cause 0. -/
def State.cellsV (ag : Agent) : Nat → List Byte → State → Except XFault (State × List (Nat × Nat × Byte))
  | _, [], s => .ok (s, [])
  | va, b :: t, s =>
    match s.translate ag accWrite va with
    | .error f => .error f
    | .ok (s, x) =>
      if !(s.stackReady x.pa) then .error ⟨0, 7, 0⟩ else
      match State.cellsV ag (va + 1) t s with
      | .error f => .error f
      | .ok (s', cs) => .ok (s', (x.entry, x.pa, b) :: cs)

/-- A write of bytes of virtual memory at their homes, leaf by leaf. -/
def State.writeV (s : State) (ag : Agent) (va : Nat) (bs : List Byte) : Except XFault State :=
  match State.cellsV ag va bs s with
  | .error f => .error f
  | .ok (s, cs) =>
    .ok (((cs.map (·.1)).eraseDups).foldl (fun a e => a.agentStore e ((cs.filter (fun c => c.1 == e)).map (·.2))) s)

end Sys2Proof.Machine
end

