-- ==== Sys2Proof/Machine/Operands.lean ====
section
/-! DEFINITION. Operands of a bundle: sources, guards, the moves that take place, the ports after them, and the destination of
a trigger's result (R100 to R111). -/

namespace Sys2Proof.Machine

/-- Lane i of `laneid` holds i (R107). -/
def laneIds : Nat → Nat
  | 0 => 0
  | n + 1 => laneIds n + n * 2 ^ (32 * n)

/-- The value of a special source for a context (R107). -/
def State.special (s : State) (core x : Nat) (c : Ctx) (r : Nat) : Val :=
  let clu := cluOfCore core
  let l := s.launch c.launch
  match r with
  | 0xC0 => .v (BitVec.ofNat 4096 (laneIds 128))
  | 0xC1 => .s (BitVec.ofNat 64 x)
  | 0xC2 => .s (BitVec.ofNat 64 (s.core core).logical)
  | 0xC3 => .s (BitVec.ofNat 64 (clu % 16))
  | 0xC4 => .s (BitVec.ofNat 64 (sgOfClu clu))
  | 0xC5 => .s (BitVec.ofNat 64 (dieOfClu clu))
  | 0xC6 => .s (BitVec.ofNat 64 Config.devId)
  | 0xC8 => .s (BitVec.ofNat 64 c.ix.ctx)
  | 0xC9 => .s (BitVec.ofNat 64 c.ix.cg)
  | 0xCA => .s (BitVec.ofNat 64 c.ix.clu)
  | 0xCB => .s (BitVec.ofNat 64 c.ix.sg)
  | 0xCC => .s (BitVec.ofNat 64 c.ix.dev)
  | 0xD0 => .s (BitVec.ofNat 64 l.nctx)
  | 0xD1 => .s (BitVec.ofNat 64 l.ncg)
  | 0xD2 => .s (BitVec.ofNat 64 l.nclu)
  | 0xD3 => .s (BitVec.ofNat 64 l.nsg)
  | 0xD4 => .s (BitVec.ofNat 64 l.ndev)
  | 0xD5 => .s (BitVec.ofNat 64 l.ndom)
  | 0xD8 => .s (BitVec.ofNat 64 c.count)
  | _ => .s 0

/-- What a move reads: its value, and the poisoned address when the value is marked (R410). -/
structure Src where
  val : Val
  mark : Option Dw := none
  /-- The register that supplied the value, where rule 2 of R104 may write back to it. -/
  reg : Option Nat := none
deriving DecidableEq, Repr

/-- Read a source field (R101). -/
def State.readSrc (s : State) (core x : Nat) (ipf pool src : Nat) : Src :=
  let c := s.ctx core x
  let v := fld src 7 0
  match fld src 9 8 with
  | 0 =>
    if isSpecial v then ⟨s.special core x c v, none, none⟩
    else ⟨c.bank.read v, c.bank.mark v, some v⟩
  | 1 => let l := Sp.get {} (s.core core).latches v; ⟨l.val, l.mark, none⟩
  | 2 => ⟨.s (BitVec.ofInt 64 (toSigned 8 v)), none, none⟩
  | _ => ⟨.s (poolEntry ipf pool (v % 4)), none, none⟩

/-- A move of the bundle that takes place: its slot, its word and what it read. -/
structure Move where
  slot : Nat
  word : Nat
  src : Src
deriving DecidableEq, Repr

def Move.unit (m : Move) : Nat := mvUnit m.word
def Move.port (m : Move) : Nat := mvPort m.word
def Move.toPort (m : Move) : Bool := mvIsPort m.word
def Move.isTrig (m : Move) : Bool := mvIsTrig m.word

/-- The guard of a move, after any inversion, is 1 (R100). -/
def moveTakes (c : Ctx) (w : Nat) : Bool := ((c.bank.greg (mvGrd w)).toNat + mvInv w) % 2 == 1

/-- The moves that take place, in slot order (R31 steps 1 and 2). -/
def State.takenMoves (s : State) (core x ipf pool : Nat) : Nat → List Nat → List Move
  | _, [] => []
  | k, w :: t =>
    let rest := State.takenMoves s core x ipf pool (k + 1) t
    if moveTakes (s.ctx core x) w then ⟨k, w, s.readSrc core x ipf pool (mvSrc w)⟩ :: rest else rest

/-- The poisoned address that a bundle consumes, and its slot (R120, R146, R410): of several, the marked guard of the lowest slot, then the
marked source of the lowest slot (DESIGN CHOICE, log entry 108). The source of a move that its guard drops is not consumed. -/
def State.consumed (s : State) (core x : Nat) (ws : List Nat) (ms : List Move) : Option (Dw × Nat) :=
  let c := s.ctx core x
  match ws.mapIdx (fun i w => if mvGrd w = 0 then none else (c.bank.mark (0xA0 + mvGrd w)).map (fun a => (a, i))) |>.findSome? id with
  | some a => some a
  | none => ms.findSome? (fun m => m.src.mark.map (fun a => (a, m.slot)))

/-- Unit ports a and b of class V (R109). -/
def portAVec (u : Nat) : Bool := u == 7 || u == 8 || u == 9
def portBVec (u : Nat) : Bool := u == 5 || u == 7 || u == 8 || u == 9 || u == 10

/-- A value as a port of class V or S holds it. -/
def portVal (vec : Bool) (v : Val) : Vec := if vec then v.toV else v.toS.setWidth 4096

/-- One move to a port a, b, d or cfg (R31 step 3, R110, R111). -/
def UnitPorts.write (p : UnitPorts) (u port : Nat) (v : Val) : UnitPorts :=
  match port with
  | 0 => { p with a := portVal (portAVec u) v }
  | 1 => { p with b := portVal (portBVec u) v }
  | 2 => { p with d := some (v.toS.setWidth 8) }
  | _ => { p with cfg := v.toS }

/-- The ports of a context after the port writes of a bundle (R31 step 3). -/
def Ctx.writePorts (c : Ctx) (ms : List Move) : Ctx :=
  ms.foldl (fun c m =>
    if m.toPort && !m.isTrig then c.setUnit m.unit ((c.unit m.unit).write m.unit m.port m.src.val) else c) c

/-- One trigger of the bundle as its operation sees it (R31 step 4, R104): its slot, unit and port, t, the ports a, b and cfg,
and the register its result goes to. -/
structure Trig where
  slot : Nat
  unit : Nat
  port : Nat
  t : Val
  a : Vec
  b : Vec
  cfg : Dw
  dest : Option Byte
deriving DecidableEq, Repr

def Trig.ts (g : Trig) : Dw := g.t.toS
def Trig.tv (g : Trig) : Vec := g.t.toV
def Trig.sa (g : Trig) : Dw := g.a.setWidth 64
def Trig.sb (g : Trig) : Dw := g.b.setWidth 64

/-- The result register of a trigger move (R104): the pending d override, else the register that supplied t when W is 0. -/
def resultReg (ov : Option Byte) (m : Move) : Option Byte :=
  match ov with
  | some d => some d
  | none =>
    match m.src.reg with
    | some r => if mvW m.word = 0 then some (BitVec.ofNat 8 r) else none
    | none => none

/-- The trigger of a move, with the ports of the context after step 3 of R31. -/
def trigOfMove (c : Ctx) (m : Move) : Trig :=
  let p := c.unit m.unit
  { slot := m.slot, unit := m.unit, port := m.port, t := m.src.val, a := p.a, b := p.b, cfg := p.cfg, dest := resultReg p.d m }

/-- The triggers of a bundle in ascending unit number. (DEDUCED, log entry 32.) -/
def trigsOf (c : Ctx) (ms : List Move) : List Trig :=
  let ts := (ms.filter Move.isTrig).map (trigOfMove c)
  (List.range 12).filterMap (fun u => ts.find? (fun t => t.unit == u))

/-- The overrides that the triggers of a bundle consume (R104, R110). -/
def Ctx.consumeD (c : Ctx) (ts : List Trig) : Ctx :=
  ts.foldl (fun c t => c.setUnit t.unit { c.unit t.unit with d := none }) c

/-- A move to port d of a value that names no register of R110 (s0, m0 and g0 are accepted). -/
def badOverride (m : Move) : Bool :=
  m.toPort && m.port == 2 && !(isReg (m.src.val.toS.toNat % 256))

end Sys2Proof.Machine
end

