-- ==== Sys2Proof/Machine/Phaser.lean ====
section
/-! DEFINITION. Phasers (R256, R257, R337 to R343): membership, signals, byte counts, completion and over-arrival. -/

namespace Sys2Proof.Machine

/-- The member's mode includes signalling, or waiting (R256). -/
def Member.signals (m : Member) : Bool := m.mode % 2 == 1
def Member.waits (m : Member) : Bool := 2 ≤ m.mode

/-- A signalling member counts for phase p when J ≤ p (R337). -/
def Member.countsFor (m : Member) (p : Nat) : Bool := m.signals && decide (m.j ≤ p)

/-- Some signalling member counts for phase p. -/
def Phaser.anyFor (f : Phaser) (p : Nat) : Bool := f.members.any (fun m => m.countsFor p)
/-- Every signalling member counting for phase p has signalled it. -/
def Phaser.allSignalled (f : Phaser) (p : Nat) : Bool := f.members.all (fun m => !(m.countsFor p) || decide (p < m.ns))

/-- The first or the third case of R339 holds for the current phase. -/
def Phaser.ready (f : Phaser) : Bool :=
  decide (f.pend0 = 0) &&
    (if f.anyFor f.phase then f.allSignalled f.phase
     else f.anyFor (f.phase + 1) && f.allSignalled (f.phase + 1))

/-- Members of a pre-empted launch l stand under the number core + (l + 1)·parkStep until they resume (R383: phasers are kept in
place). -/
def parkStep : Nat := 1048576
def parkCore (l core : Nat) : Nat := core + (l + 1) * parkStep

/-- The members that `f` names take other core numbers. -/
def Phaser.rename (p : Phaser) (f : Nat → Nat) : Phaser :=
  { p with members := p.members.map (fun m => { m with core := f m.core }), owner := p.owner.map (fun o => (f o.1, o.2)) }

/-- The member of the list that becomes owner (R342): lowest cluster, core and context number. -/
def State.lowestMember (s : State) (ms : List Member) : Option (Nat × Nat) :=
  let key (m : Member) : Nat :=
    let c := m.core % parkStep
    (cluOfCore c * 16 + (s.core c).logical) * 4 + m.ctx
  match ms with
  | [] => none
  | m :: t => let b := t.foldl (fun a x => if key x < key a then x else a) m; some (b.core, b.ctx)

/-- Some members have left: a phaser with none returns to phase 0 with all counts zero, and an owner that left is replaced. -/
def State.fixOwner (s : State) (f : Phaser) : Phaser :=
  if f.members.isEmpty then {}
  else if f.members.any (fun m => f.owner == some (m.core, m.ctx)) then f
  else { f with owner := s.lowestMember f.members }

/-- One completion of the current phase (R339). (DEDUCED, log entry 30.) -/
def State.completePhase (s : State) (f : Phaser) : Phaser :=
  s.fixOwner { f with phase := f.phase + 1, pend0 := f.pend1, pend1 := 0, members := f.members.filter (fun m => !m.leaving) }

/-- The cases of R339 are tested, and tested again after each completion. -/
def State.settle (s : State) : Nat → Phaser → Phaser
  | 0, f => f
  | n + 1, f => if f.ready then State.settle s n (s.completePhase f) else f

/-- One more PHASER_OVERRUN is pending for a context. -/
def Core.overrunCtx (k : Core) (x : Nat) : Core := k.setCtx x { k.ctx x with overruns := (k.ctx x).overruns + 1 }

/-- PHASER_OVERRUN becomes pending for a context (R146), or for the saved image of a pre-empted one. -/
def State.raiseOverrun (s : State) (core x : Nat) : State :=
  if core < parkStep then s.modCore core (fun k => k.overrunCtx x)
  else s.modLaunch (core / parkStep - 1) (fun l => { l with
    saved := l.saved.map (fun e => if e.1 = core % parkStep then (e.1, e.2.overrunCtx x) else e) })

/-- The same on the phaser's owner. -/
def State.overrunOwner (s : State) (f : Phaser) : State :=
  match f.owner with
  | some o => s.raiseOverrun o.1 o.2
  | none => s

/-- `bytes` bytes written by a transfer bound to `bound` reach the phaser (R340, R341). -/
def State.decrement (s : State) (k bytes bound : Nat) : State :=
  let f := s.phaser k
  if f.members.isEmpty ∨ bytes = 0 then s
  else if f.phase ≠ bound then
    (s.setPhaser k { f with overrun := min 0xFFFF (f.overrun + bytes) }).overrunOwner f
  else if f.pend0 < bytes then
    let f' := { f with pend0 := 0, overrun := min 0xFFFF (f.overrun + (bytes - f.pend0)) }
    (s.setPhaser k (s.settle 4 (s.completePhase f'))).overrunOwner f
  else
    let f' := { f with pend0 := f.pend0 - bytes }
    let f' := if f'.pend0 = 0 ∧ !(f.anyFor f.phase) then s.completePhase f' else f'
    s.setPhaser k (s.settle 4 f')

/-- The membership of a context. -/
def Phaser.member? (f : Phaser) (core x : Nat) : Option Member := f.members.find? (fun m => m.core == core && m.ctx == x)

/-- Change the membership of a context. -/
def Phaser.modMember (f : Phaser) (core x : Nat) (g : Member → Member) : Phaser :=
  { f with members := f.members.map (fun m => if m.core == core && m.ctx == x then g m else m) }

/-- phr (R257): join from the phase after the current one. -/
def State.phrAct (s : State) (k core x mode : Nat) : State :=
  let f := s.phaser k
  match f.member? core x with
  | some _ => s.raiseOverrun core x
  | none =>
    let m : Member := { core := core, ctx := x, mode := mode, j := f.phase + 1, ns := f.phase + 1, nw := f.phase + 1 }
    s.setPhaser k { f with members := f.members ++ [m], owner := if f.members.isEmpty then some (core, x) else f.owner }

/-- A member departs; its departure counts as its signal (R257, R338, R342). -/
def State.depart (s : State) (k core x : Nat) : State :=
  let f := s.phaser k
  match f.member? core x with
  | none => s
  | some m =>
    if m.signals then
      let ns := if m.ns ≤ f.phase then f.phase + 1 else if m.ns = f.phase + 1 then m.ns + 1 else m.ns
      s.setPhaser k (s.settle 4 (f.modMember core x (fun m => { m with ns := ns, leaving := true })))
    else
      s.setPhaser k (s.fixOwner { f with members := f.members.filter (fun m => !(m.core == core && m.ctx == x)) })

/-- The departure of the context is a signal: its mode includes signalling (R257, R338, R342). -/
def State.departSignals (s : State) (k core x : Nat) : Bool :=
  match (s.phaser k).member? core x with
  | some m => m.signals
  | none => false

/-- phd (R257): by no member, PHASER_OVERRUN. -/
def State.phdAct (s : State) (k core x : Nat) : State :=
  match (s.phaser k).member? core x with
  | none => s.raiseOverrun core x
  | some _ => s.depart k core x

/-- A signal by phs or phb must wait at the head of the queue: NS is PHASE + 2 or more (R338). -/
def State.signalHeld (s : State) (k core x : Nat) : Bool :=
  let f := s.phaser k
  match f.member? core x with
  | some m => m.signals && decide (f.phase + 1 < m.ns)
  | none => false

/-- phs, or phb with its bytes, raises PHASER_OVERRUN with nothing changed (R257, R338). -/
def State.signalRefused (s : State) (k core x bytes : Nat) : Bool :=
  let f := s.phaser k
  match f.member? core x with
  | none => true
  | some m => !m.signals ||
      (m.ns == f.phase && decide (2 ^ 40 - 1 < f.pend0 + bytes)) || (decide (f.phase < m.ns) && decide (2 ^ 40 - 1 < f.pend1 + bytes))

/-- phw raises PHASER_OVERRUN with nothing changed (R257). -/
def State.waitRefused (s : State) (k core x : Nat) : Bool :=
  match (s.phaser k).member? core x with
  | none => true
  | some m => !m.waits

/-- phs, and phb with its bytes (R338). -/
def State.signalAct (s : State) (k core x bytes : Nat) : State :=
  let f := s.phaser k
  match f.member? core x with
  | none => s.raiseOverrun core x
  | some m =>
    if s.signalRefused k core x bytes then s.raiseOverrun core x
    else
      let up := f.modMember core x (fun m => { m with ns := m.ns + 1 })
      if m.ns < f.phase then s.setPhaser k up
      else if m.ns = f.phase then s.setPhaser k (s.settle 4 { up with pend0 := f.pend0 + bytes })
      else s.setPhaser k (s.settle 4 { up with pend1 := f.pend1 + bytes })

/-- phw must wait: the member's next wait phase has not completed (R257, R338). -/
def State.phwHeld (s : State) (k core x : Nat) : Bool :=
  let f := s.phaser k
  match f.member? core x with
  | some m => m.waits && decide (f.phase ≤ m.nw)
  | none => false

/-- phw (R257). -/
def State.phwAct (s : State) (k core x : Nat) : State :=
  let f := s.phaser k
  match f.member? core x with
  | none => s.raiseOverrun core x
  | some m =>
    if !m.waits then s.raiseOverrun core x
    else s.setPhaser k (f.modMember core x (fun m => { m with nw := m.nw + 1 }))

/-- The keys of the phasers that some state lists for a core. -/
def State.livePhasers (s : State) (core : Nat) : List Nat :=
  ((s.clu (cluOfCore core)).phasers.map (fun e => cluPhaserKey (cluOfCore core) e.1)) ++
    ((s.die (dieOfCore core)).phasers.map (fun e => diePhaserKey (dieOfCore core) e.1))

/-- The scope of a signal at the phaser of a key: CLU for a cluster phaser and DEV for a die phaser (R257, R266). -/
def keyScope (k : Nat) : Nat := if k < 4096 then 2 else 3

/-- A context leaves a phaser as by phd: the departure of a member that signals is a release (R266, R342). -/
def State.departAs (s : State) (k core x : Nat) : State :=
  (if s.departSignals k core x then s.release core x (keyScope k) none else s).depart k core x

/-- A context that halts or is killed leaves each phaser it is a member of (R342). -/
def State.departAll (s : State) (core x : Nat) : State :=
  (s.livePhasers core).foldl (fun a k => a.departAs k core x) s

/-- The phaser key of PHSEL for a core (R343). -/
def phselKey (core sel : Nat) : Nat :=
  if bitOf sel 8 then diePhaserKey (dieOfCore core) (fld sel 7 0) else cluPhaserKey (cluOfCore core) (fld sel 4 0)

/-- PHSTAT (R343). -/
def Phaser.stat (f : Phaser) : Nat :=
  let left := (f.members.filter (fun m => m.countsFor f.phase && decide (m.ns ≤ f.phase))).length
  min f.pend0 0xFFFFFFFF * 2 ^ 32 + f.overrun * 2 ^ 16 + left % 256 * 2 ^ 8 + f.phase % 256

end Sys2Proof.Machine
end

