-- ==== Sys2Proof/Machine/Ops.lean ====
section
/-! DEFINITION. The shared operations of a context: results in flight and their delivery (R32, R33), the end of a context, kills
(R148, R384), taking a trap and returning from it (R147, R149), switching out (R51). -/

namespace Sys2Proof.Machine

/-! ### Results (R31 to R34) -/

/-- The rank of a plain move below unit 0 (R33): units rank as their number plus 1. -/
def rankPlain : Nat := 0
def rankUnit (u : Nat) : Nat := u + 1

/-- a was issued before b (R33), or stands in a lower slot (R118). -/
def Flight.before (a b : Flight) : Bool :=
  decide (a.born < b.born) || (a.born == b.born && (decide (a.unit < b.unit) || (a.unit == b.unit && decide (a.slot < b.slot))))

/-- Insert a result after those issued before it or together with it. -/
def insertFlight (f : Flight) : List Flight → List Flight
  | [] => [f]
  | g :: t => if f.before g then f :: g :: t else g :: insertFlight f t

/-- Results in the order of their issue. -/
def orderFlights (l : List Flight) : List Flight := l.foldl (fun a f => insertFlight f a) []

/-- A result enters the list of those in flight. -/
def Ctx.push (c : Ctx) (f : Flight) : Ctx := { c with flight := c.flight ++ [f] }

/-- The results due in the context's next bundle. -/
def Ctx.due (c : Ctx) : List Flight := orderFlights ((c.shadow ++ c.flight).filter (fun f => decide (f.due ≤ c.count)))

/-- Some due result has not arrived (R35, R52). -/
def Ctx.lateData (c : Ctx) : Bool := c.due.any (fun f => !f.arrived)

/-- Flags that due results raise (R84), BOUND (R232) and PROMOTE_LOST (R146). -/
def Ctx.dueFlags (c : Ctx) : Flags := c.due.foldl (fun a f => a ||| f.flags) 0
def Ctx.dueBound (c : Ctx) : Bool := c.due.any (fun f => f.bound)
def Ctx.dueLost (c : Ctx) : Bool := c.due.any (fun f => f.lost)

/-- The destination registers that due results write; writes to s0, m0 and g0 are ignored (R102). -/
def dueDests (l : List Flight) : List Nat :=
  l.filterMap (fun f =>
    match f.val, f.dest with
    | some _, some d => if isWritable d.toNat then some d.toNat else none
    | _, _ => none)

/-- Collisions of R33: results beyond the first at each register. -/
def collisions (ds : List Nat) : Nat := ds.length - ds.eraseDups.length

/-- One due result is written to its register. -/
def Bank.deliver (b : Bank) (f : Flight) : Bank :=
  match f.val, f.dest with
  | some v, some d => b.write d.toNat v f.mark
  | _, _ => b

/-- One due result is written to its unit's latch. -/
def deliverLatch (ls : Sp Latch) (f : Flight) : Sp Latch :=
  match f.val with
  | some v => if f.latch ∧ f.unit ≠ 0 then Sp.put ls (f.unit - 1) { val := v, mark := f.mark } else ls
  | none => ls

/-- n collisions are counted; SCONF saturates (R33, R64). -/
def Core.collide (k : Core) (n : Nat) : Core := { k with sconf := min 0xFFFFFFFF (k.sconf + n), confs := k.confs + n }

/-- The results due in the context's next bundle are written, later issue last (R32, R33). -/
def Core.deliver (k : Core) (x : Nat) : Core :=
  let c := k.ctx x
  let d := c.due
  let c' : Ctx := { c with
    bank := d.foldl Bank.deliver c.bank
    flight := c.flight.filter (fun f => decide (c.count < f.due))
    shadow := c.shadow.filter (fun f => decide (c.count < f.due)) }
  { k.setCtx x c' with
    latches := d.foldl deliverLatch k.latches }.collide (collisions (dueDests d))

/-- Entries as the shadow buffer keeps them (R51): latches are lost, and a result without a register keeps its other effects
only. -/
def toShadow (l : List Flight) : List Flight :=
  l.filterMap (fun f =>
    match f.dest with
    | some _ => some { f with latch := false }
    | none =>
      if f.flags = 0 ∧ !f.bound ∧ !f.lost ∧ f.promo.isNone then none
      else some { f with latch := false, val := none, mark := none })

/-- Data of the results that satisfy `p` arrives (R35). -/
def Ctx.arrive (c : Ctx) (p : Flight → Bool) : Ctx :=
  let f (r : Flight) : Flight := if p r then { r with arrived := true } else r
  { c with flight := c.flight.map f, shadow := c.shadow.map f }

/-- A plain move's result for the bundle about to issue (R31 step 5), be it in flight or in the shadow buffer. -/
def Ctx.isPlain (c : Ctx) (f : Flight) : Bool := f.unit == rankPlain && f.due == c.count

/-- Both results write one register. -/
def Flight.meets (a b : Flight) : Bool := (dueDests [a]).any (dueDests [b]).contains

/-- The plain moves of the last bundle that write their registers: no other result that is due with one of them at its register comes
after it (R33). -/
def Ctx.plainDue (c : Ctx) : List Flight :=
  c.due.filter (fun p => c.isPlain p && !(c.due.any (fun f => !(c.isPlain f) && p.meets f && p.before f)))

/-- The plain moves of the last bundle are written at once, before something other than the context's next bundle reads its
registers. Of the results that are due with one of them at its register the last in the order of R33 is written, the others are lost and
counted. (DEDUCED, log entry 40.) -/
def Core.landPlain (k : Core) (x : Nat) : Core :=
  let c := k.ctx x
  let now := c.plainDue
  let beaten (f : Flight) : Bool := decide (f.due ≤ c.count) && now.any (fun p => p.meets f && f.before p)
  let lose (f : Flight) : Flight := if beaten f then { f with dest := none, val := none } else f
  let rest (l : List Flight) : List Flight := (l.filter (fun f => !(c.isPlain f))).map lose
  let lost := (c.due.filter (fun p => c.isPlain p && !(now.contains p))).length + (c.due.filter (fun f => !(c.isPlain f) && beaten f)).length
  (k.setCtx x { c with bank := now.foldl Bank.deliver c.bank, flight := rest c.flight, shadow := rest c.shadow }).collide
    (collisions (dueDests now) + lost)

/-! ### The end of a context (R143, R144, R342) -/

/-- The context ends: results in flight are discarded, its comparators disarmed, its armings dropped; the core's next context is the next
by round-robin after it, with no gap (DESIGN CHOICE, log entry 101). Held stores of a loop that
a trap has set aside are dropped with it: R143 speaks of a loop active at the halt (DESIGN CHOICE, log entry 78). -/
def Core.endCtx (k : Core) (x : Nat) : Core :=
  let c := k.ctx x
  let k := k.setCtx x { c with phase := .ended, flight := [], shadow := [], pend := [], loops := {}, rept := none, chi := [],
                               uip := [], overruns := 0, part2 := false, saved := none }
  { k with
    comps := k.comps.map (fun e => if e.2.owner = some x then (e.1, { e.2 with owner := none }) else e)
    run := if k.run = some x then none else k.run
    idle := if k.run = some x then k.now else k.idle
    last := if k.run = some x then x else k.last }

/-- The same with its departures from phasers. -/
def State.endCtx (s : State) (core x : Nat) : State := (s.departAll core x).modCore core (fun k => k.endCtx x)

/-- A transfer's identifier is complete at its channel (R247). -/
def Core.closeId (k : Core) (ch id : Nat) : Core :=
  match Sp.find? k.chans ch with
  | none => k
  | some h => { k with chans := Sp.put k.chans ch { h with open_ := h.open_.filter (fun i => i != id) } }

/-- Codes of the engine slot that use a channel as a transfer (R246). -/
def isTransferOp (op : Nat) : Bool := 1 ≤ op && op ≤ 8

/-- A context's marks that the queue has not passed are discarded with it: a cpe armed on one goes on (R335, R384).
(DEDUCED, log entry 79.) -/
def Ctx.dropMarks (c : Ctx) : Ctx := { c with tagF := c.tagD }

/-- Everything a core's queues and array hold for a killed launch is discarded (R384). -/
def Core.discardQueues (k : Core) : Core :=
  let k := k.eq.foldl (fun k e => if isTransferOp e.op then k.closeId e.ch e.id else k) k
  let k := { k with ctxs := k.ctxs.map (fun (c : Nat × Ctx) => (c.1, c.2.dropMarks)) }
  { k with mq := [], eq := [], mrun := none, marks := [], promos := [], frozen := none, stalled := false
           mIss := k.mIss + k.mq.length, eIss := k.eIss + k.eq.length }

/-- The contexts that a core lists. -/
def Core.ctxIds (k : Core) : List Nat := k.ctxs.map (·.1)

/-- Every recv of a core that has taken no message is abandoned (R144). -/
def State.abandonRecvs (s : State) (core : Nat) : State :=
  { s with xfers := s.xfers.map (fun e =>
      if e.2.core = core ∧ e.2.op = 8 ∧ e.2.phase = .queued then (e.1, { e.2 with phase := .written, status := 3 }) else e) }

/-- One core of a killed launch. -/
def State.killCore (s : State) (core : Nat) : State :=
  let s := ((s.core core).ctxIds).foldl (fun a x => if (a.ctx core x).phase = .off then a else a.endCtx core x) s
  let s := (s.modCore core Core.discardQueues).abandonRecvs core
  s.modClu (cluOfCore core) (fun c => { c with enc := c.enc.filter (fun e => e.core != core) })

/-- The contexts of a pre-empted launch leave their phasers (R342). -/
def State.departParked (s : State) (l : Nat) (e : Nat × Core) : State :=
  e.2.ctxIds.foldl (fun a x => (a.livePhasers e.1).foldl (fun a k => a.depart k (parkCore l e.1) x) a) s

/-- A launch is killed with a status, on every device of it (R148, R384, R386). The kernel-end release and the signal follow at its end.
One that has not been placed yet never is. (DEDUCED, log entry 35; DEDUCED, log entry 53; DEDUCED, log entry 61.) -/
def State.killLaunch (s : State) (l status : Nat) : State :=
  let L := s.launch l
  if L.phase = .done then s
  else
    let s := L.groups.foldl (fun a g => if (a.core g.core).launch = some l then a.killCore g.core else a) s
    let s := L.saved.foldl (fun a e => a.departParked l e) s
    let s := L.shares.foldl (fun a d => a.sendOrbit (.shareKill d Config.devId l status)) s
    s.modLaunch l (fun L => { L with
      status := if L.status = 0 then status else L.status, saved := []
      empty := L.empty || L.phase == .waiting, phase := if L.phase = .waiting then .running else L.phase })

/-! ### Trap entry and return (R147 to R149) -/

/-- TPEND for a pending target (R152). -/
def tpendOf (p : Option (Nat × Dw)) : Dw :=
  match p with
  | none => 0
  | some (d, t) => BitVec.ofNat 64 (t.toNat / 32 * 32 + d)

/-- A pending target of TPEND (R152). -/
def pendOf (t : Dw) : List (Nat × Dw) :=
  let d := fld t.toNat 1 0
  if d = 0 then [] else [(d, BitVec.ofNat 64 (t.toNat / 32 * 32))]

/-- TCAUSE (R152). -/
def tcauseOf (cause pos code : Nat) : Dw := BitVec.ofNat 64 (code % 256 * 2 ^ 16 + pos % 16 * 2 ^ 8 + cause)

/-- The position of a cause that has none (R152). (DEDUCED, log entry 39.) -/
def posNone : Nat := 15

/-- s48 to s63 of a bank, and their poison marks (R147). -/
def Bank.hi (b : Bank) : List Dw := (List.range 16).map (fun i => b.sreg (48 + i))
def Bank.hiMarks (b : Bank) : List (Option Dw) := (List.range 16).map (fun i => b.mark (48 + i))

/-- s48 to s63 return (R149). -/
def Bank.restoreHi (b : Bank) (vs : List Dw) (ms : List (Option Dw)) : Bank :=
  (List.range 16).foldl (fun b i => b.write (48 + i) (.s (vs.getD i 0)) (ms.getD i none)) b

/-- A trap: its cause, position, CODE, and the value TADDR receives, if any. -/
structure Trap where
  cause : Nat
  pos : Nat := posNone
  code : Nat := 0
  addr : Option Dw := none
  xfstat : Option Dw := none
deriving DecidableEq, Repr

/-- Trap entry of one context (R147). A trap without an address leaves TADDR as it was (DESIGN CHOICE, log entry 102), and the settling
interval goes on in the handler's bundles (DESIGN CHOICE, log entry 99). -/
def Ctx.enter (c : Ctx) (t : Trap) : Ctx :=
  let user := t.cause == cUSER_INTERRUPT
  { c with
    sys := { c.sys with
      tepc := c.pc
      tpend0 := tpendOf c.pend.head?
      tpend1 := tpendOf (c.pend.drop 1).head?
      tcause := tcauseOf t.cause t.pos t.code
      taddr := t.addr.getD c.sys.taddr }
    saved := some { loops := c.loops, rept := c.rept, recM := c.recM, recE := c.recE, count := c.count, hi := c.bank.hi,
                    hiMarks := c.bank.hiMarks, part2 := c.part2, needM := c.needM, needE := c.needE
                    flight := c.shadow ++ toShadow c.flight }
    loops := {}, rept := none, recM := none, recE := none, count := 0, part2 := false, needM := 0, needE := 0, flight := []
    shadow := []
    pend := [], inh := !user, uih := user
    pc := if user then c.sys.uivec else c.sys.uhvec }

/-- The cause is routed to the context's handler (R148); USER_INTERRUPT always is. -/
def Ctx.routes (c : Ctx) (cause : Nat) : Bool :=
  cause == cUSER_INTERRUPT || (!c.inHandler && bitOf c.sys.uhmask.toNat cause)

/-- The first lost result that is due raises its PROMOTE_LOST once (R235, R282). -/
def Ctx.dropLost (c : Ctx) : Ctx :=
  match c.due.find? (fun f => f.lost) with
  | none => c
  | some f => { c with flight := c.flight.erase f, shadow := c.shadow.erase f }

/-- A gap in a core's bundles lasts an even number of cycles (R36). -/
def Core.evenGap (k : Core) : Core := { k with now := k.now + (k.now - k.idle) % 2 }

/-- A stall in place ends, after an even number of cycles (R36, R50). -/
def Core.endGap (k : Core) : Core := if k.stalled then { k.evenGap with stalled := false } else k

/-- Taking an exception: the handler is entered, or the launch is killed with the cause as its status (R147, R148). The plain moves
of the last bundle are written first (R31 step 5; DEDUCED, log entry 40). A bundle that the grant had held is not the next to issue. -/
def State.takeTrap (s : State) (core x : Nat) (t : Trap) : State :=
  let s := match t.xfstat with
    | some v => s.modCtx core x (fun c => { c with sys := { c.sys with xfstat := v } })
    | none => s
  let c := s.ctx core x
  if c.routes t.cause then
    let s := if t.cause = cPROMOTE_LOST then s.modCtx core x Ctx.dropLost else s
    s.modCore core (fun k =>
      let k := k.endGap.landPlain x
      { k.setCtx x ((k.ctx x).enter t) with latches := [], granted := false })
  else s.killLaunch c.launch t.cause

/-- eret (R149): the program's state returns, and results of the handler still in flight are discarded. A loop that the handler
started ends with it, its held stores dropped (DESIGN CHOICE, log entry 78). -/
def Ctx.eret (c : Ctx) : Ctx :=
  match c.saved with
  | none => { c with inh := false, uih := false }
  | some v =>
    { c with
      pc := c.sys.tepc
      pend := pendOf c.sys.tpend0 ++ pendOf c.sys.tpend1
      bank := c.bank.restoreHi v.hi v.hiMarks
      loops := v.loops, rept := v.rept, recM := v.recM, recE := v.recE, count := v.count, part2 := v.part2
      needM := v.needM, needE := v.needE, flight := [], shadow := v.flight, saved := none, inh := false, uih := false }

/-! ### Switching out (R51) -/

/-- A context switches out: its results enter its shadow buffer, the latches read zero, and four cycles pass. -/
def Core.switchOut (k : Core) (x : Nat) : Core :=
  let c := k.ctx x
  { k.setCtx x { c with phase := .blocked, shadow := c.shadow ++ toShadow c.flight, flight := [] } with
    latches := [], run := none, stalled := false, granted := false, now := k.now + 4, idle := k.now + 4, last := x }

/-- A context takes the core (R51, R52); the latches read zero (R34). -/
def Core.takeOver (k : Core) (x : Nat) : Core :=
  { k.evenGap.setCtx x { k.ctx x with phase := .ready } with run := some x, stalled := false, latches := [] }

/-- The first context, in ascending number after `last` and round again, that satisfies `p` (R376). -/
def nextCtx (p : Nat → Bool) (last : Nat) : Option Nat :=
  ([1, 2, 3, 4].map (fun d => (last + d) % 4)).find? p

/-- A core freezes for a cause of R35. -/
def State.freeze (s : State) (core : Nat) (f : Freeze) : State := s.modCore core (fun k => { k with frozen := some f })

/-! ### Charges (R53, R379) -/

/-- The charge of an issued bundle of weight w: of one twin, or of both twins of a tidelocked pair, which both issue it (R44); the
upper's comes after the lower's, and waits for the next period when it exceeds the grant (R54). While EN is 0 there is no grant period:
the sum goes on rising to 0xFFFF and stays (DESIGN CHOICE, log entry 80). -/
def Pair.charge (p : Pair) (w : Nat) : Pair × Bool :=
  let p1 : Pair := { p with sum := min 0xFFFF (p.sum + w), fresh := false }
  if p.mode ≠ 1 then (p1, false)
  else if p.grantEn ∧ w ≠ 0 ∧ p.grant.toNat < p1.sum + w then ({ p1 with carry := w }, true)
  else ({ p1 with sum := min 0xFFFF (p1.sum + w) }, false)

/-- An issued bundle of weight w is charged to the pair and to the launch (R53, R379). -/
def State.charge (s : State) (core l w : Nat) : State :=
  let k := s.pairOf core
  let p := s.pair k
  let r := p.charge w
  let s := (s.setPair k r.1).modCore core (fun k => { k with granted := false })
  let s := if r.2 then s.freeze core .grant else s
  if w = 0 then s else s.modLaunch l (fun L => { L with energy := L.energy + (if p.mode = 1 then 2 * w else w) })

/-- The grant holds a bundle of weight w back (R54). -/
def Pair.holds (p : Pair) (w : Nat) : Bool := p.grantEn && decide (w ≠ 0) && !p.fresh && decide (p.grant.toNat < p.sum + w)

end Sys2Proof.Machine
end

