-- ==== Sys2Proof/Machine/Control.lean ====
section
/-! DEFINITION. CT: transfers, counted and modulo loops, the repeat prefix, the wake queue, trap and halt (R127 to R143), and
the held stores and rollback of a modulo loop (R136, R137). -/

namespace Sys2Proof.Machine

/-! ### What a bundle's triggers say to the rest of the bundle -/

/-- An access that has passed its checks: where its bytes are. -/
structure Piece where
  va : Nat
  n : Nat
  space : Nat
  core : Nat := 0
  addr : Nat
  /-- The leaf of a global access, and where its A and D are kept. -/
  entry : Nat := 0
  ad : Nat := 0
  /-- The bytes of its trigger's accesses that come before it. -/
  no : Nat := 0
deriving DecidableEq, Repr

/-- What the triggers of one bundle decide beside their own effects: a taken transfer's target, the loop levels started (3 for
the modulo loop), halt, eret, the CODE of trap, and a sysw, which takes effect after the bundle; and, by unit, the pieces of their accesses
as their walks have found them (R401). -/
structure Fx where
  target : Option Dw := none
  started : List Nat := []
  halted : Bool := false
  eret : Bool := false
  brk : Option Nat := none
  sysw : Option (Nat × Dw) := none
  pieces : List (Nat × List Piece) := []
deriving DecidableEq, Repr

/-- The pieces of the accesses of a unit's trigger. -/
def Fx.of (fx : Fx) (u : Nat) : List Piece := ((fx.pieces.find? (fun e => e.1 == u)).map (·.2)).getD []

/-! ### The loop unit -/

def LoopUnit.level (u : LoopUnit) (k : Nat) : Level := if k = 0 then u.l0 else if k = 1 then u.l1 else u.l2
def LoopUnit.setLevel (u : LoopUnit) (k : Nat) (l : Level) : LoopUnit :=
  if k = 0 then { u with l0 := l } else if k = 1 then { u with l1 := l } else { u with l2 := l }

/-- Kernel iterations of a run, M − S + 1 with M = max(N, S), and the bundles of the whole run (R135). -/
def Modulo.reps (m : Modulo) : Nat := max m.n m.st + 1 - m.st
def Modulo.lead (m : Modulo) : Nat := (m.st - 1) * m.k
def Modulo.total (m : Modulo) : Nat := m.lead + m.reps * m.k + m.lead
/-- The pass number, as MLITER reads it (R135, R137). -/
def Modulo.pass (m : Modulo) : Nat := m.base + m.issued / m.k

/-- The bundle about to issue is the last kernel bundle of a kernel iteration (R135). -/
def Modulo.atKernelEnd (m : Modulo) : Bool :=
  decide (m.lead ≤ m.issued) && decide (m.issued < m.lead + m.reps * m.k) && decide ((m.issued - m.lead) % m.k = m.k - 1)

/-- LE 11 in a bundle of the loop other than the last kernel bundle, or a last kernel bundle without it (R135): also in a bundle that triggers
mloop or starts level 2, where R130 gives LE 11 no effect (DESIGN CHOICE, log entry 113). -/
def Modulo.leFault (m : Modulo) (le : Nat) : Bool := m.active && (decide (le = 3) != m.atKernelEnd)

/-- Loop levels whose count has reached zero, and a modulo loop whose last epilogue bundle has issued, have ended
(R131, R135). -/
def LoopUnit.settle (u : LoopUnit) : LoopUnit :=
  let f (l : Level) : Level := if l.active ∧ l.count = 0 then { l with active := false } else l
  let u := { u with l0 := f u.l0, l1 := f u.l1, l2 := f u.l2 }
  if u.ml.active ∧ u.ml.total ≤ u.ml.issued then
    { u with ml := {}, lastPass := u.ml.base + (u.ml.total - 1) / u.ml.k }
  else u

/-- The most recently started loop that is active (R133): a level, or 3 for the modulo loop. -/
def LoopUnit.latest (u : LoopUnit) : Option Nat :=
  let cand := ([(0, u.l0.active, u.l0.order), (1, u.l1.active, u.l1.order), (2, u.l2.active, u.l2.order),
                (3, u.ml.active, u.ml.order)] : List (Nat × Bool × Nat)).filter (fun e => e.2.1)
  match cand with
  | [] => none
  | e :: t => some (t.foldl (fun a x => if a.2.2 < x.2.2 then x else a) e).1

/-! ### Held stores (R136) -/

/-- A store leaves the core: a space-2 store to another core travels to it (R272), every other store takes effect. A release lets every
earlier store and add arrive first (R273). -/
def State.sendStore (s : State) (core : Nat) (a : StoreAcc) : State :=
  let s := match a.rel with
    | some sc => s.beforeRelease core a.ctx sc
    | none => s
  if a.space = 2 ∧ a.core ≠ core then
    let s := match a.rel with
      | some sc => s.takeGen core a.ctx sc none
      | none => s
    { s with s2 := s.s2 ++ [(core, { a with rel := none })] }
  else s.commitStore core a

/-- A running drain has to write back this line still (R278). -/
def Core.owes (k : Core) (line : Nat) : Bool :=
  match k.drain, k.l1Line? line with
  | some g, some l => decide (l.dirty ≠ 0) && decide (l.gen ≤ g)
  | _, _ => false

/-- A held store is about to leave: A and D of its leaves are set again (R403, R408), and the lines that a running drain still owes are
written back, so that the store makes them dirty anew (R278). -/
def State.readyHeld (s : State) (core : Nat) (a : StoreAcc) : State :=
  if a.space ≠ 0 then s
  else
    let s := (a.parts.filterMap (·.leaf)).eraseDups.foldl (fun s l => s.adAgain l.1 l.2) s
    (((a.cells.map (fun c => c.1 / 128)).eraseDups).filter (s.core core).owes).foldl (fun s l => s.writeBackLine core l) s

/-- Every store that a modulo loop holds is released, in issue order. -/
def State.releaseHeld (s : State) (core x : Nat) (p : Nat → Bool) : State :=
  let m := (s.ctx core x).loops.ml
  let s := (m.held.filter (fun h => p h.1)).foldl (fun a h => (a.readyHeld core h.2).sendStore core h.2) s
  s.modCtx core x (fun c => { c with loops := { c.loops with ml := { c.loops.ml with held := m.held.filter (fun h => !(p h.1)) } } })

/-- The modulo loop of a context ends, if it has one (R135): its held stores are released, its snapshots dropped. -/
def State.endModulo (s : State) (core x : Nat) : State :=
  if (s.ctx core x).loops.ml.active then
    let s := s.releaseHeld core x (fun _ => true)
    s.modCtx core x (fun c => { c with loops := { c.loops with ml := {}, lastPass := c.loops.ml.pass } })
  else s

/-- The iteration a store belongs to in the pass that issues it, when the loop holds or discards it (R136): none when the store
takes effect at once. -/
inductive StoreFate where
  | now
  | hold (j : Nat)
  | drop
deriving DecidableEq, Repr

def Modulo.fate (m : Modulo) : StoreFate :=
  if m.active ∧ m.rb ∧ !m.fresh then
    let p := m.pass
    if p < m.sts then .now
    else
      let j := p - m.sts
      if j < m.base then .now
      else if j < m.mAbs then .hold j
      else if m.again then .drop else .now
  else .now

/-- A store without the bytes that `cs` names. -/
def StoreAcc.without (a : StoreAcc) (cs : Cells) : StoreAcc :=
  { a with parts := a.parts.map (fun p => { p with bytes := p.bytes.filter (fun b => !(cs.any (fun c => c.1 == b.1))) }) }

/-- The loop's held stores give way to a later write of the context to the same bytes that is not held (R225). -/
def LoopUnit.yieldHeld (u : LoopUnit) (space k : Nat) (cs : Cells) : LoopUnit :=
  { u with ml := { u.ml with held := u.ml.held.map (fun h =>
      if (h.2.space == 0) == (space == 0) && (space == 0 || h.2.core == k) then (h.1, h.2.without cs) else h) } }

/-- The same for the context's loop, and for the one that a trap has set aside. -/
def Ctx.yieldHeld (c : Ctx) (space k : Nat) (cs : Cells) : Ctx :=
  { c with loops := c.loops.yieldHeld space k cs, saved := c.saved.map (fun v => { v with loops := v.loops.yieldHeld space k cs }) }

/-- Some store is held for the context. -/
def Ctx.holds (c : Ctx) : Bool := !c.loops.ml.held.isEmpty || c.saved.any (fun v => !v.loops.ml.held.isEmpty)

def State.yieldHeld (s : State) (core x space k : Nat) (cs : Cells) : State :=
  if (s.ctx core x).holds then s.modCtx core x (fun c => c.yieldHeld space k cs) else s

/-- A store of a move slot (R136). What operations of the array dispatched before it read of its bytes, they have read (R212, R225). -/
def State.putStore (s : State) (core x : Nat) (a : StoreAcc) : State :=
  let s := if a.space = 0 then s else s.keepUnder core x a.core a.cells
  match (s.ctx core x).loops.ml.fate with
  | .now => (s.yieldHeld core x a.space a.core a.cells).sendStore core a
  | .hold j => s.modCtx core x (fun c => { c with loops := { c.loops with ml := { c.loops.ml with held := c.loops.ml.held ++ [(j, a)] } } })
  | .drop => s

/-- With `n` further stores of its bundle before it, a store would exceed the 256 stores of the buffer (R136); one that goes to several
cores is one store. -/
def Ctx.heldFull (c : Ctx) (n : Nat) : Bool :=
  match c.loops.ml.fate with
  | .hold _ => decide (256 ≤ (c.loops.ml.held.filter (fun h => !h.2.more)).length + n)
  | _ => false


/-- The byte a context's own held store gives a load (R136), latest first; `space` 0 by physical address, else by scratchpad of
core `k`. -/
def Ctx.heldByte (c : Ctx) (space k addr : Nat) : Option Byte :=
  (c.heldStores.reverse).findSome? (fun h =>
    if (h.space == 0) == (space == 0) && (space == 0 || h.core == k) then (h.cells.reverse.find? (fun b => b.1 == addr)).map (·.2)
    else none)


/-! ### Rollback (R137) -/

/-- The snapshot of the carried set at the first bundle of a pass (R136). -/
def Ctx.snapshot (c : Ctx) : Ctx :=
  let m := c.loops.ml
  if m.active ∧ m.rb ∧ m.issued % m.k = 0 ∧ m.pass < m.mAbs then
    let snap := m.carried.map (fun r => (r, c.bank.read r.toNat, c.bank.mark r.toNat))
    { c with loops := { c.loops with ml := { m with snaps := m.snaps ++ [(m.pass, snap)] } } }
  else c

/-- The context as a rollback of its loop leaves it (R137 steps 1 and 3 to 5): at the prologue of the loop restarted for the iterations
from j0 on. -/
def Ctx.restart (c : Ctx) (snaps : List (Nat × List (Byte × Val × Option Dw))) (j0 : Nat) : Ctx :=
  let m := c.loops.ml
  let snap := ((snaps.find? (fun e => e.1 == j0)).map (·.2)).getD []
  let ml := { m with n := m.mAbs - j0, base := j0, issued := 0, held := [], snaps := [], again := true }
  { c with
    flight := [], shadow := [], pend := [], pc := m.start, part2 := false, needM := 0, needE := 0
    bank := snap.foldl (fun b e => b.write e.1.toNat e.2.1 e.2.2) c.bank
    loops := { c.loops with ml := ml }
    sys := { c.sys with titer := BitVec.ofNat 64 (j0 % 2 ^ 32) } }

/-- A rollback of the active loop, detected for cause `code` at address `addr`. The first bundle of a pass has its snapshot, of the
values its moves read, when it is the detecting bundle too. The plain moves of the bundle before the detecting one are written (R31 step 5;
DEDUCED, log entry 40). Its POS is 0xF, since the trap is none of the detecting bundle's slots' (DEDUCED, log entry 39). -/
def State.rollback (s : State) (core x code : Nat) (addr : Dw) : State :=
  let c := s.ctx core x
  let m := c.loops.ml
  let j0 := max m.base (m.pass + 1 - m.st)
  let snaps := (((s.core core).deliver x).ctx x).snapshot.loops.ml.snaps
  let s := s.releaseHeld core x (fun j => decide (j < j0))
  if bitOf c.sys.uhmask.toNat cROLLBACK then
    (s.modCore core (fun k => let k := k.landPlain x; k.setCtx x ((k.ctx x).restart snaps j0))).takeTrap core x
      { cause := cROLLBACK, code := code, addr := some addr }
  else s.killLaunch c.launch code

/-- A poison is consumed by a bundle, or its twins disagree: a rollback in a loop with RB = 1, otherwise the trap itself. -/
def State.consumePoison (s : State) (core x code pos : Nat) (addr : Dw) : State :=
  let m := (s.ctx core x).loops.ml
  if m.active ∧ m.rb then s.rollback core x code addr
  else s.takeTrap core x { cause := code, pos := pos, addr := if code = cPOISON then some addr else none }

/-! ### CT operations (R127 to R143) -/

/-- A taken transfer ends an active modulo loop (R135) and goes to `t`. -/
def State.transfer (s : State) (core x : Nat) (fx : Fx) (t : Dw) : State × Fx :=
  (s.endModulo core x, { fx with target := some t })

def ctJmp (core x : Nat) (g : Trig) (r : State × Fx) : State × Fx := r.1.transfer core x r.2 g.ts
def ctBr (core x : Nat) (g : Trig) (r : State × Fx) : State × Fx := r.1.transfer core x r.2 ((r.1.ctx core x).pc + g.ts)
def ctBnz (core x : Nat) (g : Trig) (r : State × Fx) : State × Fx := if g.sa ≠ 0 then ctBr core x g r else r
def ctBz (core x : Nat) (g : Trig) (r : State × Fx) : State × Fx := if g.sa = 0 then ctBr core x g r else r

/-- call: the address after the two delay bundles goes to b3 and to s63 with latency 1 (R128). -/
def ctCall (core x : Nat) (g : Trig) (r : State × Fx) : State × Fx :=
  let c := r.1.ctx core x
  let s := r.1.modCtx core x (fun c => c.push
    { due := c.count + 1, born := c.count, unit := rankUnit 3, dest := some 63, val := some (.s (c.pc + 96)) })
  s.transfer core x r.2 (c.pc + g.ts)

def ctRet (core x : Nat) (g : Trig) (r : State × Fx) : State × Fx := r.1.transfer core x r.2 g.ts

/-- loop (R130). -/
def ctLoop (core x : Nat) (g : Trig) (r : State × Fx) : State × Fx :=
  let s := r.1.endModulo core x
  let k := g.sa.toNat % 4
  let n := g.ts.toNat % 2 ^ 32
  (s.modCtx core x (fun c =>
    let l : Level := { active := true, start := c.pc + 32, count := if n = 0 then 1 else n, order := c.loops.next }
    { c with loops := { c.loops.setLevel k l with next := c.loops.next + 1 } }),
   { r.2 with started := k :: r.2.started })

/-- The bytes of a dword, lowest first. -/
def dwBytes (d : Dw) : List Byte := bytesOf 8 d.toNat

/-- mloop's operands lie within the limits of R134. K and S are the numbers that their fields hold: K 64 and S 16 have no encoding.
(DESIGN CHOICE, log entry 81.) -/
def mloopOk (t a b : Dw) : Bool :=
  let _ := t
  let n := a.toNat
  let k := fld n 5 0
  let st := fld n 11 8
  decide (1 ≤ k) && decide (1 ≤ st) && decide (fld n 15 12 < st) && decide (fld n 7 6 = 0) && decide (n / 2 ^ 17 = 0)
    && (!(bitOf n 16) || (dwBytes b).all (fun r => r == 0 || isWritable r.toNat))

/-- mloop (R134, R135). -/
def ctMloop (core x : Nat) (g : Trig) (r : State × Fx) : State × Fx :=
  let s := r.1.endModulo core x
  let n := g.ts.toNat % 2 ^ 32
  let a := g.sa.toNat
  let st := fld a 11 8
  (s.modCtx core x (fun c =>
    let m : Modulo := { active := true, start := c.pc + 32, n := n, mAbs := max n st, k := fld a 5 0, st := st, sts := fld a 15 12
                        rb := bitOf a 16, carried := (dwBytes g.sb).filter (fun i => i != 0), order := c.loops.next, fresh := true }
    { c with loops := { c.loops with ml := m, l2 := { c.loops.l2 with active := false }, next := c.loops.next + 1 } }),
   { r.2 with started := 3 :: r.2.started })

/-- lbrk ends the most recently started active loop and branches (R133). -/
def ctLbrk (core x : Nat) (g : Trig) (r : State × Fx) : State × Fx :=
  let s := match (r.1.ctx core x).loops.latest with
    | some k =>
      if k = 3 then r.1
      else r.1.modCtx core x (fun c => { c with loops := c.loops.setLevel k { c.loops.level k with active := false, count := 0 } })
    | none => r.1
  ctBr core x g (s, r.2)

/-- rept's operand lies within its limits (R139). -/
def reptOk (t : Dw) : Bool := decide (1 ≤ t.toNat) && decide (t.toNat ≤ 4096)

/-- SEXT(x, n) of a dword. -/
def sextDw (n : Nat) (x : Dw) : Dw := BitVec.ofInt 64 (toSigned n x.toNat)

/-- rept (R139). -/
def ctRept (core x : Nat) (g : Trig) (r : State × Fx) : State × Fx :=
  (r.1.modCtx core x (fun c => { c with rept := some { r := g.ts.toNat, sA := sextDw 32 g.sa, sB := sextDw 32 g.sb } }), r.2)

/-- trap raises BREAK after its bundle (R150). -/
def ctTrap (_core _x : Nat) (g : Trig) (r : State × Fx) : State × Fx := (r.1, { r.2 with brk := some (g.ts.toNat % 256) })
/-- eret (R149): the return takes place after the eret bundle. -/
def ctEret (_core _x : Nat) (_g : Trig) (r : State × Fx) : State × Fx := (r.1, { r.2 with eret := true })
/-- wait pops one token (R142). -/
def ctWait (core x : Nat) (_g : Trig) (r : State × Fx) : State × Fx :=
  (r.1.modCtx core x (fun c => { c with tokens := c.tokens - 1 }), r.2)

/-- warm's reserved bits are zero (R140). -/
def warmOk (t a : Dw) : Bool := decide (t.toNat < 2 ^ 20) && decide (a.toNat < 2 ^ 43)

/-- warm arms or disarms a comparator (R140). -/
def ctWarm (core x : Nat) (g : Trig) (r : State × Fx) : State × Fx :=
  let a := g.sa.toNat
  let len := fld a 19 0
  let thr := fld a 39 20
  let comp : Comp :=
    { owner := if len = 0 then none else some x, base := g.ts.toNat % 2 ^ 20, len := len, thr := if thr = 0 then 1 else thr, count := 0 }
  (r.1.modCore core (fun k => { k with comps := Sp.put k.comps (fld a 42 40) comp }), r.2)

/-- halt (R143): the modulo loop ends here; the context ends after its bundle. -/
def ctHalt (core x : Nat) (_g : Trig) (r : State × Fx) : State × Fx := (r.1.endModulo core x, { r.2 with halted := true })

/-! ### Loop ends and the next address (R38, R131, R132, R135) -/

/-- What the end of a bundle does to the loop unit of a context: the back-edge's target, if it is taken. -/
def Ctx.loopEnd (c : Ctx) (le : Nat) (fx : Fx) : Ctx × Option Dw :=
  let blocked := !c.pend.isEmpty || fx.target.isSome
  let c := if fx.started.contains 3 then { c with loops := { c.loops with ml := { c.loops.ml with fresh := false } } } else c
  let u := c.loops
  if u.ml.active ∧ !(fx.started.contains 3) then
    let m := u.ml
    let back : Option Dw :=
      if m.atKernelEnd ∧ m.issued + m.k < m.lead + m.reps * m.k ∧ !blocked then some (m.start + BitVec.ofNat 64 (32 * m.lead)) else none
    let u := { u with ml := { m with issued := m.issued + 1 } }
    if le = 1 ∨ le = 2 then levelEnd { c with loops := u } (le - 1) blocked back else ({ c with loops := u }, back)
  else if le = 0 then (c, none)
  else levelEnd c (le - 1) blocked none
where
  /-- An end bundle of a counted level (R131, R132). -/
  levelEnd (c : Ctx) (k : Nat) (blocked : Bool) (back : Option Dw) : Ctx × Option Dw :=
    let l := c.loops.level k
    if !l.active ∨ fx.started.contains k then (c, back)
    else
      let n := l.count - 1
      ({ c with loops := c.loops.setLevel k { l with count := n } }, if n ≠ 0 ∧ !blocked then some l.start else back)

/-- Pending targets after one more bundle, and the target that is now reached (R38). -/
def advancePend (p : List (Nat × Dw)) : List (Nat × Dw) × Option Dw :=
  let q := p.map (fun e => (e.1 - 1, e.2))
  (q.filter (fun e => decide (e.1 ≠ 0)), (q.find? (fun e => decide (e.1 = 0))).map (·.2))

/-- The context after an issued bundle: loop ends, the next address, pending targets, the count and the settling interval, which a
handler's bundles count down too (DESIGN CHOICE, log entry 99). -/
def Ctx.advance (c : Ctx) (le : Nat) (fx : Fx) : Ctx :=
  let r := c.loopEnd le fx
  let p := advancePend c.pend
  let pend := match fx.target with
    | some t => p.1 ++ [(2, t)]
    | none => p.1
  let pc := match p.2, r.2 with
    | some t, _ => t
    | none, some t => t
    | none, none => c.pc + 32
  { r.1 with pc := pc, pend := pend, count := c.count + 1, setLen := c.setLen - 1, part2 := false }

/-- The iteration whose held stores are released once the bundle that has just issued is the last of its pass (R136). -/
def Modulo.releaseDue (m : Modulo) : Option Nat :=
  if m.active ∧ m.rb ∧ m.issued % m.k = 0 ∧ m.issued ≠ 0 ∧ m.st ≤ m.base + m.issued / m.k then
    some (m.base + m.issued / m.k - m.st)
  else none

/-- LCNT and MLITER as system registers (R152). The COUNT of an inactive level reads 0; that of an inactive modulo loop stays its last pass
number (DESIGN CHOICE, log entry 82). -/
def Level.lcnt (l : Level) : Nat := if l.active then 2 ^ 32 + l.count % 2 ^ 32 else 0
def LoopUnit.mliter (u : LoopUnit) : Nat := if u.ml.active then 2 ^ 32 + u.ml.pass % 2 ^ 32 else u.lastPass % 2 ^ 32

end Sys2Proof.Machine
end

