-- ==== Sys2Proof/Machine/Scalar.lean ====
section
/-! DEFINITION. SX0, SX1 and SM (R122 to R126): results, latencies. -/

namespace Sys2Proof.Machine

/-! ### SX (R123, R124): x is t, y is port a, b is port b -/

/-- 1 when the relation holds, 0 otherwise. -/
def boolDw (b : Bool) : Dw := if b then 1 else 0

/-- The shift amount y[5:0]. -/
def shAmt (y : Dw) : Nat := y.toNat % 64

def sxAdd (x y _b : Dw) : Dw := x + y
def sxSub (x y _b : Dw) : Dw := x - y
def sxAnd (x y _b : Dw) : Dw := x &&& y
def sxOr (x y _b : Dw) : Dw := x ||| y
def sxXor (x y _b : Dw) : Dw := x ^^^ y
def sxShl (x y _b : Dw) : Dw := x <<< shAmt y
def sxShr (x y _b : Dw) : Dw := x >>> shAmt y
def sxSar (x y _b : Dw) : Dw := x.sshiftRight (shAmt y)
def sxMin (x y _b : Dw) : Dw := if x.slt y then x else y
def sxMax (x y _b : Dw) : Dw := if x.slt y then y else x
def sxMinu (x y _b : Dw) : Dw := if x.ult y then x else y
def sxMaxu (x y _b : Dw) : Dw := if x.ult y then y else x
def sxCeq (x y _b : Dw) : Dw := boolDw (x == y)
def sxCne (x y _b : Dw) : Dw := boolDw (x != y)
def sxClt (x y _b : Dw) : Dw := boolDw (x.slt y)
def sxCltu (x y _b : Dw) : Dw := boolDw (x.ult y)
def sxCle (x y _b : Dw) : Dw := boolDw (x.sle y)
def sxCleu (x y _b : Dw) : Dw := boolDw (x.ule y)
def sxSel (x y b : Dw) : Dw := if b.toNat % 2 = 1 then x else y

/-- Leading zero bits of a number below 2^n. -/
def clzNat (n x : Nat) : Nat := if x = 0 then n else n - 1 - Nat.log2 x

/-- One bits among the lowest n of x. -/
def popNat : Nat → Nat → Nat
  | 0, _ => 0
  | n + 1, x => x % 2 + popNat n (x / 2)

def sxClz (x _y _b : Dw) : Dw := BitVec.ofNat 64 (clzNat 64 x.toNat)
def sxPopc (x _y _b : Dw) : Dw := BitVec.ofNat 64 (popNat 64 x.toNat)
/-- SEXT(x, n), n = y[6:0], when n is 1 to 63. -/
def sxSext (x y _b : Dw) : Dw :=
  let n := y.toNat % 128
  if 1 ≤ n ∧ n ≤ 63 then sextDw n x else x

/-- An integer clamped to the signed 64-bit range. -/
def clamp64 (i : Int) : Int :=
  if i < -(2 ^ 63 : Nat) then -(2 ^ 63 : Nat) else if ((2 ^ 63 : Nat) : Int) - 1 < i then ((2 ^ 63 : Nat) : Int) - 1 else i

def sxAdds (x y _b : Dw) : Dw := BitVec.ofInt 64 (clamp64 (x.toInt + y.toInt))

/-- lsb, and the width capped at 64 (R124). -/
def fieldPos (y : Dw) : Nat × Nat := (y.toNat % 64, min 64 (fld y.toNat 12 6))
/-- The field mask m of R124. -/
def fieldMask (y : Dw) : Dw := BitVec.ofNat 64 ((2 ^ (fieldPos y).2 - 1) * 2 ^ (fieldPos y).1)
def sxBfx (x y _b : Dw) : Dw := (x &&& fieldMask y) >>> (fieldPos y).1
def sxBfi (x y b : Dw) : Dw := (x &&& ~~~(fieldMask y)) ||| ((b <<< (fieldPos y).1) &&& fieldMask y)
def sxPass (x _y _b : Dw) : Dw := x
def sxPack (x y _b : Dw) : Dw := BitVec.ofNat 64 (x.toNat % 2 ^ 32 + y.toNat % 2 ^ 32 * 2 ^ 32)

/-- The result of an SX trigger by port (R123). -/
def sxResult (p : Nat) (x y b : Dw) : Dw :=
  match p with
  | 4 => sxAdd x y b | 5 => sxSub x y b | 6 => sxAnd x y b | 7 => sxOr x y b | 8 => sxXor x y b
  | 9 => sxShl x y b | 10 => sxShr x y b | 11 => sxSar x y b | 12 => sxMin x y b | 13 => sxMax x y b
  | 14 => sxMinu x y b | 15 => sxMaxu x y b | 16 => sxCeq x y b | 17 => sxCne x y b | 18 => sxClt x y b
  | 19 => sxCltu x y b | 20 => sxCle x y b | 21 => sxCleu x y b | 22 => sxSel x y b | 23 => sxClz x y b
  | 24 => sxPopc x y b | 25 => sxSext x y b | 26 => sxAdds x y b | 27 => sxBfx x y b | 28 => sxBfi x y b
  | 29 => sxPass x y b | _ => sxPack x y b

/-! ### SM (R125, R126) -/

def smMul (x y _b : Dw) : Dw := x * y
def smMulh (x y _b : Dw) : Dw := BitVec.ofInt 64 ((x.toInt * y.toInt) / (2 ^ 64 : Nat))
def smMulhu (x y _b : Dw) : Dw := BitVec.ofNat 64 (x.toNat * y.toNat / 2 ^ 64)
def smMadd (x y b : Dw) : Dw := x * y + b
/-- Quotient truncated toward zero; all ones for a divisor of 0. -/
def smDiv (x y _b : Dw) : Dw := if y = 0 then BitVec.allOnes 64 else BitVec.ofInt 64 (x.toInt.tdiv y.toInt)
def smDivu (x y _b : Dw) : Dw := if y = 0 then BitVec.allOnes 64 else BitVec.ofNat 64 (x.toNat / y.toNat)
/-- x − q·y; x for a divisor of 0. -/
def smRem (x y _b : Dw) : Dw := if y = 0 then x else BitVec.ofInt 64 (x.toInt.tmod y.toInt)
def smRemu (x y _b : Dw) : Dw := if y = 0 then x else BitVec.ofNat 64 (x.toNat % y.toNat)

/-- The result of an SM trigger by port (R125). -/
def smResult (p : Nat) (x y b : Dw) : Dw :=
  match p with
  | 4 => smMul x y b | 5 => smMulh x y b | 6 => smMulhu x y b | 7 => smMadd x y b
  | 8 => smDiv x y b | 9 => smDivu x y b | 10 => smRem x y b | _ => smRemu x y b

/-- The latency of an SM trigger (R28). -/
def smLatency (p : Nat) : Nat := if p ≤ 7 then 3 else 24

/-! ### Delivering a unit's result -/

/-- A unit's result of latency k goes to its latch and to the register of R104, with the flags it raises (R32, R84). -/
def State.result (s : State) (core x : Nat) (g : Trig) (lat : Nat) (v : Val) (fl : Flags) : State :=
  s.modCtx core x (fun c => c.push
    { due := c.count + lat, born := c.count, unit := rankUnit g.unit, dest := g.dest, val := some v, flags := fl })

/-- A trigger of SX0 or SX1. -/
def sxRun (core x : Nat) (g : Trig) (r : State × Fx) : State × Fx :=
  (r.1.result core x g 1 (.s (sxResult g.port g.ts g.sa g.sb)) 0, r.2)

/-- A trigger of SM. -/
def smRun (core x : Nat) (g : Trig) (r : State × Fx) : State × Fx :=
  (r.1.result core x g (smLatency g.port) (.s (smResult g.port g.ts g.sa g.sb)) 0, r.2)

end Sys2Proof.Machine
end

