-- ==== Sys2Proof/Machine/Vector.lean ====
section
/-! DEFINITION. Vectors (R157 to R160) and VA0, VA1 (R162 to R179): the cfg checks, each operation on elements, flags, and the
stochastic counter. -/

namespace Sys2Proof.Machine

/-! ### Elements (R157) -/

/-- Element i of width w. -/
def elem (w : Nat) (x : Nat) (i : Nat) : Nat := x / 2 ^ (w * i) % 2 ^ w

/-- The number whose elements of width w are the list, element 0 lowest. -/
def packElems (w : Nat) : List Nat → Nat
  | [] => 0
  | e :: t => e % 2 ^ w + 2 ^ w * packElems w t

/-- The n elements of width w of a number. -/
def unpackElems (w x : Nat) : Nat → List Nat
  | 0 => []
  | n + 1 => x % 2 ^ w :: unpackElems w (x / 2 ^ w) n

/-- Elements in a vector. -/
def elemCount (f : Fmt) : Nat := 4096 / fmtWidth f

/-- Replace `n` elements of width w of a number, from element `i` on. -/
def spliceElems (w x i : Nat) (es : List Nat) : Nat :=
  let lo := x % 2 ^ (w * i)
  let hi := x / 2 ^ (w * (i + es.length))
  lo + 2 ^ (w * i) * (packElems w es + 2 ^ (w * es.length) * hi)

/-- A vector from a number. -/
def vecOf (x : Nat) : Vec := BitVec.ofNat 4096 x

/-! ### Configuration (R162, R163) -/

def vaFmt (cfg : Nat) : Nat := fld cfg 3 0
def vaDfmt (cfg : Nat) : Nat := fld cfg 7 4
def vaRm (cfg : Nat) : Nat := fld cfg 10 8
def vaSat (cfg : Nat) : Bool := bitOf cfg 11
def vaPart (cfg : Nat) : Nat := fld cfg 14 12
def vaQout (cfg : Nat) : Bool := bitOf cfg 15
def vaRemap (cfg : Nat) : Bool := bitOf cfg 16
def vaXval (cfg : Nat) : Nat := fld cfg 47 32

/-- The format sets of R163. -/
def setA (f : Nat) : Bool := f ≤ 2 || (6 ≤ f && f ≤ 11)
def setF (f : Nat) : Bool := f ≤ 2
def setI (f : Nat) : Bool := isInt f
def setQ (f : Nat) : Bool := 3 ≤ f && f ≤ 5
def setAll (f : Nat) : Bool := f ≤ 12

/-- The operation of a port reads RM (R163). -/
def vaReadsRm (p : Nat) : Bool := (4 ≤ p && p ≤ 8) || p == 18 || p == 25 || p == 27 || p == 28 || p == 29

/-- The formats of a trigger are accepted (R163). -/
def vaFmtOk (p cfg : Nat) : Bool :=
  let f := vaFmt cfg
  let d := vaDfmt cfg
  if p = 17 then setAll f
  else if p = 18 then setAll f && setAll d
  else if (19 ≤ p ∧ p ≤ 21) ∨ p = 30 then true
  else if 22 ≤ p ∧ p ≤ 24 then setI f
  else if p = 25 then setF f
  else if p = 28 then setF f && setQ d
  else if p = 29 then setQ f && setF d
  else setA f

/-- PART is below the operation's limit (R159, R177 to R179). -/
def vaPartOk (p cfg : Nat) : Bool :=
  let ws := fmtWidth (vaFmt cfg)
  let wd := fmtWidth (vaDfmt cfg)
  let part := vaPart cfg
  if (13 ≤ p ∧ p ≤ 17) then decide (part < 32 / ws)
  else if p = 18 then decide (part < max ws wd / min ws wd)
  else if p = 28 then decide (part < ws / wd)
  else if p = 29 then decide (part < wd / ws)
  else true

/-- A VA trigger's cfg raises ILLEGAL_MOVE (R111, R163). -/
def vaIllegal (p cfg : Nat) : Bool :=
  decide (fld cfg 63 48 ≠ 0) || decide (fld cfg 31 17 ≠ 0) || !(vaFmtOk p cfg) || (vaReadsRm p && decide (5 ≤ vaRm cfg))
    || !(vaPartOk p cfg)

/-- The operation advances RSTCTR (R164). -/
def vaAdvances (p cfg : Nat) : Bool := vaReadsRm p && vaRm cfg == 4

/-- What an operation that may round under RST reads of its context (R80): seed, context number and counter. -/
structure Rst where
  seed : Nat := 0
  ctx : Nat := 0
  ctr : Nat := 0
deriving DecidableEq, Repr

/-- RSTBITS of an element's lane, when the mode is RST (R79, R164). -/
def Rst.hash (r : Rst) (rm lane : Nat) : Nat := if rm = 4 then rstBits r.seed r.ctx (lane % 512) r.ctr else 0

/-! ### Arithmetic (R165, R166) -/

/-- Fold the flags of a list of results. -/
def orFlags (l : List (Nat × Flags)) : Flags := l.foldl (fun a e => a ||| e.2) 0

/-- The exact value of add, sub, mul, fma, fms on exact operands, and its invalid flag (R165). -/
def arithExact (p : Nat) (rdn : Bool) (t a b : Ex) : Ex × Flags :=
  match p with
  | 4 => exAdd rdn t a
  | 5 => exAdd rdn t a.negate
  | 6 => exMul t a
  | 7 => let m := exMul a b; let r := exAdd rdn m.1 t; (r.1, m.2 ||| r.2)
  | _ => let m := exMul a b; let r := exAdd rdn m.1 t.negate; (r.1, m.2 ||| r.2)

/-- The operands an arithmetic port reads. -/
def arithOps (p : Nat) (t a b : Ex) : List Ex := if p = 7 ∨ p = 8 then [t, a, b] else [t, a]

/-- The exact integer of R166. -/
def arithInt (p : Nat) (t a b : Int) : Int :=
  match p with
  | 4 => t + a
  | 5 => t - a
  | 6 => t * a
  | 7 => a * b + t
  | _ => a * b - t

/-- The integer an integer code stands for. -/
def intVal (f : Fmt) (c : Nat) : Int := if isSignedInt f then toSigned (fmtWidth f) c else ((c % 2 ^ fmtWidth f : Nat) : Int)

/-- An exact integer wrapped, or clamped under SAT (R166). -/
def intResult (f : Fmt) (sat : Bool) (v : Int) : Nat :=
  if sat then wrapInt (fmtWidth f) (if v < intMin f then intMin f else if intMax f < v then intMax f else v)
  else wrapInt (fmtWidth f) v

/-- One element of add, sub, mul, fma, fms. -/
def arithElem (p : Nat) (f : Fmt) (rm : Nat) (sat : Bool) (hash t a b : Nat) : Nat × Flags :=
  if isInt f then (intResult f sat (arithInt p (intVal f t) (intVal f a) (intVal f b)), 0)
  else
    let x := valp f t; let y := valp f a; let z := valp f b
    let v := arithExact p (rm == 3) x y z
    let r := rnd f rm sat false true hash v.1
    (r.1, v.2 ||| r.2 ||| sigFlag (arithOps p x y z))

/-! ### min, max, abs, neg, clmp, rnd, scl (R167 to R171) -/

/-- x comes before y, with −0 before +0 (R167). -/
def minBefore (x y : Ex) : Bool := x.lt y || (x.isZero && y.isZero && x.neg && !y.neg)

/-- One element of min or max. -/
def minmaxElem (mx : Bool) (f : Fmt) (t a : Nat) : Nat × Flags :=
  if isInt f then
    let lt := decide (intVal f t < intVal f a)
    (if lt != mx then t else a, 0)
  else
    let x := valp f t; let y := valp f a
    let fl := sigFlag [x, y]
    match x.isNaN, y.isNaN with
    | true, true => (qnan f, fl)
    | true, false => (a, fl)
    | false, true => (t, fl)
    | false, false => (if minBefore x y != mx then t else a, fl)

/-- One element of abs (R168). -/
def absElem (f : Fmt) (sat : Bool) (t : Nat) : Nat × Flags :=
  if isInt f then (if isSignedInt f then intResult f sat (if intVal f t < 0 then -(intVal f t) else intVal f t) else t, 0)
  else (t % 2 ^ (fmtWidth f - 1), 0)

/-- One element of neg (R168). -/
def negElem (f : Fmt) (sat : Bool) (t : Nat) : Nat × Flags :=
  if isInt f then (intResult f sat (-(intVal f t)), 0)
  else ((t + 2 ^ (fmtWidth f - 1)) % 2 ^ fmtWidth f, 0)

/-- The value of a code of set A, as an exact value. -/
def valA (f : Fmt) (c : Nat) : Ex := if isInt f then Ex.ofInt (intVal f c) else valp f c

/-- Numeric x < y, false with a NaN. -/
def exLt (x y : Ex) : Bool := !x.isNaN && !y.isNaN && x.lt y
def exEq (x y : Ex) : Bool := !x.isNaN && !y.isNaN && x.eq y

/-- One element of clmp (R169). -/
def clmpElem (f : Fmt) (t a b : Nat) : Nat × Flags :=
  let fl := if isInt f then 0 else sigFlag [valp f t, valp f a, valp f b]
  if !(isInt f) && (valp f t).isNaN then (qnan f, fl)
  else
    let x := if exLt (valA f t) (valA f a) then a else t
    let x := if exLt (valA f b) (valA f x) then b else x
    (x, fl)

/-- One element of rnd (R170). -/
def rndElem (f : Fmt) (rm hash t : Nat) : Nat × Flags :=
  if isInt f then (t, 0)
  else match valp f t with
  | .nan s => (qnan f, if s then fNV else 0)
  | .inf _ => (t, 0)
  | .zero _ => (t, 0)
  | .fin n p q =>
    let k := (roundMag rm hash n p q).1
    ((rne f (Ex.mk n k 1)).1, 0)

/-- An exponent far outside every format's range is brought to its edge, where every result is the same. -/
def clampExp (k : Int) : Int := if k < -2000 then -2000 else if 2000 < k then 2000 else k

/-- One element of scl (R171). -/
def sclElem (f : Fmt) (rm : Nat) (sat : Bool) (hash t a : Nat) : Nat × Flags :=
  let x := valp f t
  let r := rnd f rm sat false true hash (exScale x (clampExp (toSigned (fmtWidth f) a)))
  (r.1, r.2 ||| sigFlag [x])

/-! ### Compares, select, shifts (R172 to R175) -/

/-- The relation of a compare port on two codes, and its flags (R172). -/
def cmpElem (p : Nat) (f : Fmt) (t a : Nat) : Bool × Flags :=
  let x := valA f t; let y := valA f a
  let fl := if isInt f then 0 else sigFlag [x, y]
  (match p with
   | 13 => exEq x y
   | 14 => exLt x y
   | 15 => exLt x y || exEq x y
   | _ => x.isNaN || y.isNaN, fl)

/-- sel (R173). -/
def selVec (w part : Nat) (t a b : Nat) : Nat :=
  let es := (List.range 128).map (fun j => if bitOf b j then elem w a (part * 128 + j) else elem w t (part * 128 + j))
  spliceElems w t (part * 128) es

/-- One element of shl, shr, sar (R175). -/
def shiftElem (p w t c : Nat) : Nat :=
  let k := min c w
  match p with
  | 22 => t * 2 ^ k % 2 ^ w
  | 23 => t / 2 ^ k
  | _ => wrapInt w (toSigned w t / (2 ^ k : Nat))

/-! ### cvt, qnt, dqn (R177 to R179) -/

/-- One element of cvt. -/
def cvtElem (cfg hash t : Nat) : Nat × Flags :=
  rnd (vaDfmt cfg) (vaRm cfg) (vaSat cfg) (vaRemap cfg) false hash (val (vaFmt cfg) (vaRemap cfg) (vaXval cfg) t)

/-- cvt (R177). -/
def cvtVec (cfg : Nat) (r : Rst) (t b : Nat) : Nat × Flags :=
  let ws := fmtWidth (vaFmt cfg)
  let wd := fmtWidth (vaDfmt cfg)
  let n := 4096 / max ws wd
  let part := vaPart cfg
  let es := (List.range n).map (fun i =>
    cvtElem cfg (r.hash (vaRm cfg) i) (elem ws t (if ws < wd then part * n + i else i)))
  (if wd < ws then spliceElems wd b (part * n) (es.map (·.1)) else packElems wd (es.map (·.1)), orFlags es)

/-- emax of R178. -/
def qntEmax (f : Fmt) : Nat := if f = 3 then 15 else if f = 4 then 8 else 2

/-- The largest magnitude of a list of finite values. -/
def maxMag : List Ex → Ex
  | [] => .zero false
  | x :: t => let m := maxMag t; if m.lt x.abs then x.abs else m

/-- The scale of one block (R178). -/
def qntScale (d : Fmt) (xs : List Ex) : Nat :=
  if xs.any (fun x => x.isNaN || x.isInf) then 0xFF
  else min 0xFE ((toE8M0 (maxMag xs)).1 - qntEmax d)

/-- qnt (R178); a signalling NaN of a block without a scale sets NV too (R78). -/
def qntVec (cfg : Nat) (r : Rst) (t b : Nat) : Nat × Flags :=
  let f := vaFmt cfg
  let d := vaDfmt cfg
  let w := fmtWidth f
  let n := 4096 / w
  let part := vaPart cfg
  let xs := (unpackElems w t n).map (valp f)
  let scales := (List.range (n / 32)).map (fun k => qntScale d ((xs.drop (32 * k)).take 32))
  if vaQout cfg then (spliceElems 8 b (part * n / 32) scales, 0)
  else
    let es := (List.range n).map (fun i =>
      let s := scales.getD (i / 32) 0
      let x := xs.getD i (.zero false)
      if s = 0xFF then (0, sigFlag [x])
      else rnd d (vaRm cfg) true (vaRemap cfg) false (r.hash (vaRm cfg) i) (exScale x (127 - (s : Int))))
    (spliceElems (fmtWidth d) b (part * n) (es.map (·.1)), orFlags es)

/-- dqn (R179). -/
def dqnVec (cfg : Nat) (r : Rst) (t a : Nat) : Nat × Flags :=
  let f := vaFmt cfg
  let d := vaDfmt cfg
  let n := 4096 / fmtWidth d
  let es := (List.range n).map (fun i =>
    let g := vaPart cfg * n + i
    let s := elem 8 a (g / 32)
    if s = 0xFF then (qnan d, 0)
    else
      let x := val f (vaRemap cfg) (vaXval cfg) (elem (fmtWidth f) t g)
      rnd d (vaRm cfg) (vaSat cfg) false false (r.hash (vaRm cfg) i) (exScale x ((s : Int) - 127)))
  (packElems (fmtWidth d) (es.map (·.1)), orFlags es)

/-! ### The whole operation -/

/-- An operation that works element by element. -/
def mapElems (w : Nat) (h : Nat → Nat → Nat → Nat → Nat × Flags) (t a b : Nat) : Nat × Flags :=
  let es := (List.range (4096 / w)).map (fun i => h i (elem w t i) (elem w a i) (elem w b i))
  (packElems w (es.map (·.1)), orFlags es)

/-- A compare's mask (R172). -/
def cmpMask (p cfg t a : Nat) : Nat × Flags :=
  let w := fmtWidth (vaFmt cfg)
  let es := (List.range 128).map (fun j =>
    let i := vaPart cfg * 128 + j
    let r := cmpElem p (vaFmt cfg) (elem w t i) (elem w a i)
    ((if r.1 then 1 else 0), r.2))
  (packElems 1 (es.map (·.1)), orFlags es)

def vaAdd (cfg : Nat) (r : Rst) (t a b : Nat) : Nat × Flags :=
  mapElems (fmtWidth (vaFmt cfg)) (fun i => arithElem 4 (vaFmt cfg) (vaRm cfg) (vaSat cfg) (r.hash (vaRm cfg) i)) t a b
def vaSub (cfg : Nat) (r : Rst) (t a b : Nat) : Nat × Flags :=
  mapElems (fmtWidth (vaFmt cfg)) (fun i => arithElem 5 (vaFmt cfg) (vaRm cfg) (vaSat cfg) (r.hash (vaRm cfg) i)) t a b
def vaMul (cfg : Nat) (r : Rst) (t a b : Nat) : Nat × Flags :=
  mapElems (fmtWidth (vaFmt cfg)) (fun i => arithElem 6 (vaFmt cfg) (vaRm cfg) (vaSat cfg) (r.hash (vaRm cfg) i)) t a b
def vaFma (cfg : Nat) (r : Rst) (t a b : Nat) : Nat × Flags :=
  mapElems (fmtWidth (vaFmt cfg)) (fun i => arithElem 7 (vaFmt cfg) (vaRm cfg) (vaSat cfg) (r.hash (vaRm cfg) i)) t a b
def vaFms (cfg : Nat) (r : Rst) (t a b : Nat) : Nat × Flags :=
  mapElems (fmtWidth (vaFmt cfg)) (fun i => arithElem 8 (vaFmt cfg) (vaRm cfg) (vaSat cfg) (r.hash (vaRm cfg) i)) t a b
def vaMin (cfg : Nat) (t a b : Nat) : Nat × Flags := mapElems (fmtWidth (vaFmt cfg)) (fun _ t a _ => minmaxElem false (vaFmt cfg) t a) t a b
def vaMax (cfg : Nat) (t a b : Nat) : Nat × Flags := mapElems (fmtWidth (vaFmt cfg)) (fun _ t a _ => minmaxElem true (vaFmt cfg) t a) t a b
def vaAbs (cfg : Nat) (t a b : Nat) : Nat × Flags := mapElems (fmtWidth (vaFmt cfg)) (fun _ t _ _ => absElem (vaFmt cfg) (vaSat cfg) t) t a b
def vaNeg (cfg : Nat) (t a b : Nat) : Nat × Flags := mapElems (fmtWidth (vaFmt cfg)) (fun _ t _ _ => negElem (vaFmt cfg) (vaSat cfg) t) t a b
def vaClmp (cfg : Nat) (t a b : Nat) : Nat × Flags := mapElems (fmtWidth (vaFmt cfg)) (fun _ t a b => clmpElem (vaFmt cfg) t a b) t a b
def vaRnd (cfg : Nat) (r : Rst) (t a b : Nat) : Nat × Flags :=
  mapElems (fmtWidth (vaFmt cfg)) (fun i t _ _ => rndElem (vaFmt cfg) (vaRm cfg) (r.hash (vaRm cfg) i) t) t a b
def vaScl (cfg : Nat) (r : Rst) (t a b : Nat) : Nat × Flags :=
  mapElems (fmtWidth (vaFmt cfg)) (fun i t a _ => sclElem (vaFmt cfg) (vaRm cfg) (vaSat cfg) (r.hash (vaRm cfg) i) t a) t a b
def vaShift (p cfg : Nat) (t a b : Nat) : Nat × Flags :=
  mapElems (fmtWidth (vaFmt cfg)) (fun _ t a _ => (shiftElem p (fmtWidth (vaFmt cfg)) t a, 0)) t a b

/-- The result of a VA trigger by port, with its flags (R165 to R179). -/
def vaResult (p : Nat) (cfg : Nat) (r : Rst) (tv av bv : Vec) : Val × Flags :=
  let t := tv.toNat; let a := av.toNat; let b := bv.toNat
  let vec (x : Nat × Flags) : Val × Flags := (.v (vecOf x.1), x.2)
  match p with
  | 4 => vec (vaAdd cfg r t a b)
  | 5 => vec (vaSub cfg r t a b)
  | 6 => vec (vaMul cfg r t a b)
  | 7 => vec (vaFma cfg r t a b)
  | 8 => vec (vaFms cfg r t a b)
  | 9 => vec (vaMin cfg t a b)
  | 10 => vec (vaMax cfg t a b)
  | 11 => vec (vaAbs cfg t a b)
  | 12 => vec (vaNeg cfg t a b)
  | 17 => (.v (vecOf (selVec (fmtWidth (vaFmt cfg)) (vaPart cfg) t a b)), 0)
  | 18 => vec (cvtVec cfg r t b)
  | 19 => (.v (tv &&& av), 0)
  | 20 => (.v (tv ||| av), 0)
  | 21 => (.v (tv ^^^ av), 0)
  | 22 => vec (vaShift 22 cfg t a b)
  | 23 => vec (vaShift 23 cfg t a b)
  | 24 => vec (vaShift 24 cfg t a b)
  | 25 => vec (vaScl cfg r t a b)
  | 26 => vec (vaClmp cfg t a b)
  | 27 => vec (vaRnd cfg r t a b)
  | 28 => vec (qntVec cfg r t b)
  | 29 => vec (dqnVec cfg r t a)
  | 30 => (.v tv, 0)
  | p => let m := cmpMask p cfg t a; (.m (BitVec.ofNat 128 m.1), m.2)

/-- The latency of a VA trigger (R28). -/
def vaLatency (p : Nat) : Nat := if 6 ≤ p ∧ p ≤ 8 then 5 else 3

/-- What an RST operation reads of its context (R80). -/
def Ctx.rst (c : Ctx) (x : Nat) : Rst := { seed := c.sys.rstSeed.toNat, ctx := x, ctr := c.sys.rstCtr.toNat }

/-- RSTCTR advances by one (R80). -/
def Ctx.bumpRst (c : Ctx) : Ctx := { c with sys := { c.sys with rstCtr := c.sys.rstCtr + 1 } }

/-- A trigger of VA0 or VA1. -/
def vaRun (core x : Nat) (g : Trig) (r : State × Fx) : State × Fx :=
  let cfg := g.cfg.toNat
  let v := vaResult g.port cfg ((r.1.ctx core x).rst x) g.tv g.a g.b
  let s := r.1.result core x g (vaLatency g.port) v.1 v.2
  (if vaAdvances g.port cfg then s.modCtx core x Ctx.bumpRst else s, r.2)

end Sys2Proof.Machine
end

