-- ==== Sys2Proof/Machine/Special.lean ====
section
/-! DEFINITION. VF (R180, R181): the special functions, correctly rounded. Algebraic functions are formed exactly; the others are
enclosed to some 950 bits below the point, far beyond the distance of any operand's value from a midpoint (log entry 8). -/

namespace Sys2Proof.Machine

/-- Bits below the point of the fixed-point numbers of this file. -/
def vfK : Nat := 1000
def vfOne : Nat := 2 ^ vfK

/-- The integer square root, found bit by bit from 2^k down. -/
def isqrtFrom (n : Nat) : Nat → Nat → Nat
  | 0, r => if (r + 1) * (r + 1) ≤ n then r + 1 else r
  | k + 1, r => let c := r + 2 ^ (k + 1); isqrtFrom n k (if c * c ≤ n then c else r)

def isqrt (n : Nat) : Nat := isqrtFrom n (Nat.log2 n / 2 + 1) 0

/-- A value strictly between two neighbouring fixed-point numbers: N and a half. -/
def Ex.between (neg : Bool) (n : Nat) : Ex := .fin neg (2 * n + 1) (2 * vfOne)

/-- √(p/q). -/
def sqrtEx (p q : Nat) : Ex :=
  let s := isqrt (p * q)
  if s * s = p * q then Ex.mk false s q else Ex.between false (isqrt (p * q * vfOne * vfOne) / q)

/-- The Taylor sum of e^r, r in fixed point: terms from the i-th on. -/
def taylor (r : Nat) : Nat → Nat → Nat → Nat
  | 0, _, _ => 0
  | n + 1, i, term => term + taylor r n (i + 1) (term * r / vfOne / (i + 1))

/-- y squared n times, in fixed point. -/
def squareN : Nat → Nat → Nat
  | 0, y => y
  | n + 1, y => squareN n (y * y / vfOne)

/-- e^x for x ≥ 0 in fixed point, x at most some hundreds. -/
def expPos (x : Nat) : Nat := squareN 20 (taylor (x / 2 ^ 20) 90 0 vfOne)

/-- e^−x for x ≥ 0. -/
def expNeg (x : Nat) : Nat := vfOne * vfOne / expPos x

/-- The sum of z^(2i+1)/(2i+1), in fixed point. -/
def atanhSum (z2 : Nat) : Nat → Nat → Nat → Nat
  | 0, _, _ => 0
  | n + 1, i, zp => zp / (2 * i + 1) + atanhSum z2 n (i + 1) (zp * z2 / vfOne)

/-- ln m for m = p/q ≥ 1 near 1: 2 atanh((p − q)/(p + q)). -/
def lnOf (p q : Nat) : Nat :=
  let z := (p - q) * vfOne / (p + q)
  2 * atanhSum (z * z / vfOne) 330 0 z

/-- ln 2. -/
def ln2 : Nat := lnOf 2 1

/-- A magnitude in fixed point, brought to at most 600, where every function of this file has reached its limit. -/
def fxMag (p q : Nat) : Nat := if 600 * q ≤ p then 600 * vfOne else p * vfOne / q

/-- 2^x for a finite non-zero x. -/
def exp2Ex (neg : Bool) (p q : Nat) : Ex :=
  if 600 * q ≤ p then Ex.dyadic false 1 (if neg then -600 else 600) |> (fun v => match v with | .fin n a b => .fin n (a * 2 ^ 64 + 1) (b * 2 ^ 64) | v => v)
  else if p % q = 0 then Ex.dyadic false 1 (if neg then -((p / q : Nat) : Int) else ((p / q : Nat) : Int))
  else
    let fr := p % q * vfOne / q
    let e := expPos (fr * ln2 / vfOne)
    if neg then Ex.between false (vfOne * vfOne / e) |> (exScale · (-((p / q : Nat) : Int)))
    else Ex.between false e |> (exScale · ((p / q : Nat) : Int))

/-- log2 x for a finite x > 0. -/
def log2Ex (p q : Nat) : Ex :=
  let k := floorLog2 p q
  let m := divPow p q k
  if m.1 = m.2 then Ex.ofInt k
  else
    -- log2 of m in [1, 2), from both ends of the interval
    let fr := lnOf m.1 m.2 * vfOne / ln2
    let v : Int := k * (vfOne : Nat) + (fr : Int)
    if v < 0 then Ex.between true (-v - 1).toNat else Ex.between false v.toNat

/-- e^x. -/
def expEx (neg : Bool) (p q : Nat) : Ex :=
  let x := fxMag p q
  Ex.between false (if neg then expNeg x else expPos x)

/-- tanh x = (1 − u)/(1 + u) with u = e^−2|x|, odd. -/
def tanhEx (neg : Bool) (p q : Nat) : Ex :=
  let u := expNeg (2 * fxMag p q)
  Ex.between neg ((vfOne - u) * vfOne / (vfOne + u))

/-- 1/(1 + e^−x). -/
def sigmFx (neg : Bool) (p q : Nat) : Nat :=
  let u := expNeg (fxMag p q)
  if neg then u * vfOne / (vfOne + u) else vfOne * vfOne / (vfOne + u)

def sigmEx (neg : Bool) (p q : Nat) : Ex := Ex.between false (sigmFx neg p q)

/-- x/(1 + e^−x). -/
def siluEx (neg : Bool) (p q : Nat) : Ex :=
  let s := sigmFx neg p q
  .fin neg (p * (2 * s + 1)) (q * (2 * vfOne))

/-- What R181 delivers for an operand that is no finite non-zero number: the value and its flag. -/
def vfSpecial (p : Nat) (x : Ex) : Ex × Flags :=
  let nan : Ex × Flags := (.nan false, fNV)
  match x with
  | .nan s => (.nan s, 0)
  | .inf true =>
    (match p with
     | 4 => nan | 5 => (.zero true, 0) | 6 => nan | 7 => (.zero false, 0) | 8 => nan | 9 => (.zero false, 0)
     | 10 => (Ex.ofInt (-1), 0) | 11 => (.zero false, 0) | _ => (.zero true, 0))
  | .inf false =>
    (match p with
     | 4 => (.zero false, 0) | 5 => (.zero false, 0) | 10 => (Ex.ofInt 1, 0) | 11 => (Ex.ofInt 1, 0) | _ => (.inf false, 0))
  | .zero n =>
    (match p with
     | 4 => (.inf n, fDZ) | 5 => (.inf n, fDZ) | 6 => (.zero n, 0) | 7 => (Ex.ofInt 1, 0) | 8 => (.inf true, fDZ)
     | 9 => (Ex.ofInt 1, 0) | 10 => (.zero n, 0) | 11 => (.fin false 1 2, 0) | _ => (.zero n, 0))
  | x => (x, 0)

/-- f(x) for a finite non-zero x (R180); a negative operand of rsq, sqrt and log2 is invalid (R181). -/
def vfFinite (p : Nat) (neg : Bool) (a b : Nat) : Ex × Flags :=
  let nan : Ex × Flags := (.nan false, fNV)
  match p with
  | 4 => if neg then nan else (sqrtEx b a, 0)
  | 5 => (.fin neg b a, 0)
  | 6 => if neg then nan else (sqrtEx a b, 0)
  | 7 => (exp2Ex neg a b, 0)
  | 8 => if neg then nan else (log2Ex a b, 0)
  | 9 => (expEx neg a b, 0)
  | 10 => (tanhEx neg a b, 0)
  | 11 => (sigmEx neg a b, 0)
  | _ => (siluEx neg a b, 0)

/-- One element of a VF operation (R180, R181). -/
def vfElem (p : Nat) (f : Fmt) (t : Nat) : Nat × Flags :=
  let v := match valp f t with
    | .fin n a b => vfFinite p n a b
    | x => vfSpecial p x
  let r := rnd f 0 false false true 0 v.1
  (r.1, r.2 ||| v.2)

/-- VF's cfg raises ILLEGAL_MOVE (R180). -/
def vfIllegal (cfg : Nat) : Bool := decide (2 < cfg)

/-- A VF operation on a whole vector. -/
def vfVec (p f t : Nat) : Nat × Flags := mapElems (fmtWidth f) (fun _ x _ _ => vfElem p f x) t 0 0

def vfRsq (f t : Nat) : Nat × Flags := vfVec 4 f t
def vfRcp (f t : Nat) : Nat × Flags := vfVec 5 f t
def vfSqrt (f t : Nat) : Nat × Flags := vfVec 6 f t
def vfExp2 (f t : Nat) : Nat × Flags := vfVec 7 f t
def vfLog2 (f t : Nat) : Nat × Flags := vfVec 8 f t
def vfExp (f t : Nat) : Nat × Flags := vfVec 9 f t
def vfTanh (f t : Nat) : Nat × Flags := vfVec 10 f t
def vfSigm (f t : Nat) : Nat × Flags := vfVec 11 f t
def vfSilu (f t : Nat) : Nat × Flags := vfVec 12 f t

/-- The result of a VF trigger by port. -/
def vfResult (p f t : Nat) : Nat × Flags :=
  match p with
  | 4 => vfRsq f t | 5 => vfRcp f t | 6 => vfSqrt f t | 7 => vfExp2 f t | 8 => vfLog2 f t
  | 9 => vfExp f t | 10 => vfTanh f t | 11 => vfSigm f t | _ => vfSilu f t

/-- A trigger of VF. -/
def vfRun (core x : Nat) (g : Trig) (r : State × Fx) : State × Fx :=
  let v := vfResult g.port (g.cfg.toNat % 16) g.tv.toNat
  (r.1.result core x g 12 (.v (vecOf v.1)) v.2, r.2)

end Sys2Proof.Machine
end

