-- ==== Sys2Proof/Machine/CrossLane.lean ====
section
/-! DEFINITION. VX, the cross-lane unit (R182 to R191). -/

namespace Sys2Proof.Machine

def vxFmt (cfg : Nat) : Nat := fld cfg 3 0
def vxSeg (cfg : Nat) : Nat := fld cfg 7 4

/-- The segment length L (R182). -/
def vxLen (cfg : Nat) : Nat := if vxSeg cfg = 0 then elemCount (vxFmt cfg) else 2 ^ vxSeg cfg

/-- Set W of R183. -/
def setW (f : Nat) : Bool := f ≤ 12 && f != 5
/-- The formats of perm (R183). -/
def setPerm (f : Nat) : Bool := f ≤ 2 || (8 ≤ f && f ≤ 11)

/-- The operation reads SEG (R183). -/
def vxReadsSeg (p : Nat) : Bool := p ≤ 7 || p == 10 || p == 11

/-- A VX trigger's cfg raises ILLEGAL_MOVE (R111, R182, R183). -/
def vxIllegal (p cfg : Nat) : Bool :=
  let f := vxFmt cfg
  decide (256 ≤ cfg) ||
    (if p = 9 then false
     else if p ≤ 6 ∨ p = 11 then !(setA f)
     else if p = 8 then !(setPerm f)
     else !(setW f)) ||
    (vxReadsSeg p && decide (elemCount f < vxLen cfg))

/-- One addition rounded to the format under RNE, or an exact integer sum mod 2^w (R184). -/
def addRne (f : Fmt) (x y : Nat) : Nat × Flags :=
  if isInt f then ((x + y) % 2 ^ fmtWidth f, 0)
  else arithElem 4 f 0 false 0 x y 0

/-- One level of the pairwise tree (R184). -/
def pairUp (h : Nat → Nat → Nat × Flags) : List (Nat × Flags) → List (Nat × Flags)
  | a :: b :: t => (let r := h a.1 b.1; (r.1, r.2 ||| a.2 ||| b.2)) :: pairUp h t
  | l => l

/-- n levels of the tree. -/
def treeUp (h : Nat → Nat → Nat × Flags) : Nat → List (Nat × Flags) → List (Nat × Flags)
  | 0, l => l
  | n + 1, l => treeUp h n (pairUp h l)

/-- The running sum of one segment (R186), given the sum before it. -/
def scanFrom (h : Nat → Nat → Nat × Flags) : Nat → List Nat → List (Nat × Flags)
  | _, [] => []
  | acc, x :: t => let r := h acc x; r :: scanFrom h r.1 t

/-- The first element of a scanned segment, rounded (R186). -/
def scanFirst (f : Fmt) (x : Nat) : Nat × Flags := if isInt f then (x, 0) else rne f (valp f x)

/-- A list cut into runs of length k. -/
def chunksOf (k : Nat) : Nat → List Nat → List (List Nat)
  | 0, _ => []
  | n + 1, l => l.take k :: chunksOf k n (l.drop k)

/-- The reduction of every segment (R184, R185); elements past the segments are zero. -/
def vxReduce (h : Fmt → Nat → Nat → Nat × Flags) (cfg t : Nat) : Nat × Flags :=
  let f := vxFmt cfg
  let n := elemCount f
  let l := vxLen cfg
  let es := treeUp (h f) (Nat.log2 l) ((unpackElems (fmtWidth f) t n).map (fun x => (x, 0)))
  (packElems (fmtWidth f) (es.map (·.1)), orFlags es)

def vxRsum (cfg t : Nat) : Nat × Flags := vxReduce addRne cfg t
def vxRmax (cfg t : Nat) : Nat × Flags := vxReduce (minmaxElem true) cfg t
def vxRmin (cfg t : Nat) : Nat × Flags := vxReduce (minmaxElem false) cfg t

/-- scan (R186). -/
def vxScan (cfg t : Nat) : Nat × Flags :=
  let f := vxFmt cfg
  let n := elemCount f
  let l := vxLen cfg
  let segs := chunksOf l (n / l) (unpackElems (fmtWidth f) t n)
  let es := segs.flatMap (fun sg =>
    match sg with
    | [] => []
    | x :: r => let a := scanFirst f x; a :: scanFrom (addRne f) a.1 r)
  (packElems (fmtWidth f) (es.map (·.1)), orFlags es)

/-- The elements of a result picked by index from t. -/
def pickElems (w n t : Nat) (ix : Nat → Nat) : Nat := packElems w ((List.range n).map (fun i => elem w t (ix i)))

/-- bcst and rot (R187). -/
def vxBcst (cfg t a : Nat) : Nat :=
  let n := elemCount (vxFmt cfg); let l := vxLen cfg
  pickElems (fmtWidth (vxFmt cfg)) n t (fun i => i / l * l + a % l)
def vxRot (cfg t a : Nat) : Nat :=
  let n := elemCount (vxFmt cfg); let l := vxLen cfg
  pickElems (fmtWidth (vxFmt cfg)) n t (fun i => i / l * l + (i % l + a) % l)

/-- perm and gxch (R188). -/
def vxPerm (cfg t b : Nat) : Nat :=
  let n := elemCount (vxFmt cfg); let w := fmtWidth (vxFmt cfg)
  pickElems w n t (fun i => elem w b i % n)
def vxGxch (t a : Nat) : Nat := packElems 512 ((List.range 8).map (fun g => elem 512 t (fld a (3 * g + 2) (3 * g))))

/-- cmpr and expd (R189). -/
def vxCmpr (cfg t b : Nat) : Nat :=
  let n := elemCount (vxFmt cfg); let w := fmtWidth (vxFmt cfg)
  packElems w ((List.range n).filterMap (fun i => if bitOf b i then some (elem w t i) else none))

/-- The elements of expd from index i on, k one bits having been met. -/
def expdFrom (w t b : Nat) : Nat → Nat → Nat → List Nat
  | 0, _, _ => []
  | n + 1, i, k => if bitOf b i then elem w t k :: expdFrom w t b n (i + 1) (k + 1) else 0 :: expdFrom w t b n (i + 1) k

def vxExpd (cfg t b : Nat) : Nat := packElems (fmtWidth (vxFmt cfg)) (expdFrom (fmtWidth (vxFmt cfg)) t b (elemCount (vxFmt cfg)) 0 0)

/-- The index of the lowest one bit among the next n, or n. -/
def lowBit : Nat → Nat → Nat
  | 0, _ => 0
  | n + 1, x => if x % 2 = 1 then 0 else 1 + lowBit n (x / 2)

/-- popm and ffs (R190). -/
def vxPopm (cfg t : Nat) : Nat := popNat (elemCount (vxFmt cfg)) t
def vxFfs (cfg t : Nat) : Nat := lowBit (elemCount (vxFmt cfg)) t

/-- vtos (R191). -/
def vxVtos (cfg t a : Nat) : Dw :=
  let f := vxFmt cfg
  let e := elem (fmtWidth f) t (a % elemCount f)
  if isSignedInt f then BitVec.ofInt 64 (toSigned (fmtWidth f) e) else BitVec.ofNat 64 e

/-- stov (R191). -/
def vxStov (cfg : Nat) (t : Dw) (a b : Nat) : Nat :=
  let f := vxFmt cfg
  spliceElems (fmtWidth f) b (a % elemCount f) [t.toNat % 2 ^ fmtWidth f]

/-- The result of a VX trigger by port, with its flags. -/
def vxResult (p cfg : Nat) (t : Val) (a : Dw) (b : Vec) : Val × Flags :=
  let tv := t.toV.toNat
  let vec (x : Nat × Flags) : Val × Flags := (.v (vecOf x.1), x.2)
  match p with
  | 4 => vec (vxRsum cfg tv)
  | 5 => vec (vxRmax cfg tv)
  | 6 => vec (vxRmin cfg tv)
  | 7 => vec (vxBcst cfg tv a.toNat, 0)
  | 8 => vec (vxPerm cfg tv b.toNat, 0)
  | 9 => vec (vxGxch tv a.toNat, 0)
  | 10 => vec (vxRot cfg tv a.toNat, 0)
  | 11 => vec (vxScan cfg tv)
  | 12 => vec (vxCmpr cfg tv b.toNat, 0)
  | 13 => vec (vxExpd cfg tv b.toNat, 0)
  | 14 => (.s (BitVec.ofNat 64 (vxPopm cfg tv)), 0)
  | 15 => (.s (BitVec.ofNat 64 (vxFfs cfg tv)), 0)
  | 16 => (.s (vxVtos cfg tv a.toNat), 0)
  | _ => vec (vxStov cfg t.toS a.toNat b.toNat, 0)

/-- The latency of a VX trigger (R183). -/
def vxLatency (p : Nat) : Nat := if p ≤ 6 ∨ p = 11 then 8 else 4

/-- A trigger of VX. -/
def vxRun (core x : Nat) (g : Trig) (r : State × Fx) : State × Fx :=
  let v := vxResult g.port g.cfg.toNat g.t g.sa g.b
  (r.1.result core x g (vxLatency g.port) v.1 v.2, r.2)

end Sys2Proof.Machine
end

