-- ==== Sys2Proof/Machine/MemUnits.lean ====
section
/-! DEFINITION. LS, LV and AT (R220 to R235): configuration, addresses and their faults, loads, stores, line operations, fences,
atomics and promote-acquires. -/

namespace Sys2Proof.Machine

/-! ### Configuration (R220, R221) -/

def mSpace (cfg : Nat) : Nat := fld cfg 1 0
def mOrd (cfg : Nat) : Nat := fld cfg 3 2
def mScope (cfg : Nat) : Nat := fld cfg 6 4
def mHint (cfg : Nat) : Nat := fld cfg 9 8
def mEsz (cfg : Nat) : Nat := fld cfg 11 10
def mMreg (cfg : Nat) : Nat := fld cfg 15 12
def mWidth (cfg : Nat) : Nat := fld cfg 11 10
def mFmt (cfg : Nat) : Nat := fld cfg 15 12

/-- ORD acquires, or releases. -/
def ordAcq (o : Nat) : Bool := o % 2 == 1
def ordRel (o : Nat) : Bool := 2 ≤ o

/-- An LS trigger's cfg raises ILLEGAL_MOVE. -/
def lsIllegal (p cfg : Nat) : Bool :=
  decide (cfg / 2 ^ 10 ≠ 0) || bitOf cfg 7 ||
    (if p = 15 then decide (mOrd cfg = 0) || decide (4 < mScope cfg)
     else if 16 ≤ p then decide (mSpace cfg = 3)
     else decide (mSpace cfg = 3) || decide (4 < mScope cfg) ||
       (if p ≤ 10 then decide (1 < mOrd cfg) else decide (mOrd cfg ≠ 0 ∧ mOrd cfg ≠ 2)))

/-- The LV port loads. -/
def lvLoads (p : Nat) : Bool := p == 4 || p == 6 || p == 8 || p == 10 || p == 11

/-- An LV trigger's cfg raises ILLEGAL_MOVE. -/
def lvIllegal (p cfg : Nat) : Bool :=
  decide (cfg / 2 ^ 16 ≠ 0) || bitOf cfg 7 || decide (mSpace cfg = 3) ||
    ((p == 8 || p == 9) && decide (mEsz cfg ≠ 2)) ||
    (if p = 13 then false
     else decide (4 < mScope cfg) || (if lvLoads p then decide (1 < mOrd cfg) else decide (mOrd cfg ≠ 0 ∧ mOrd cfg ≠ 2)))

/-- An AT trigger's cfg raises ILLEGAL_MOVE (R221, R231). -/
def atIllegal (p cfg : Nat) : Bool :=
  let fl := 15 ≤ p && p ≤ 17
  decide (cfg / 2 ^ 16 ≠ 0) || bitOf cfg 7 || decide (mSpace cfg = 3) || decide (mWidth cfg = 3) ||
    (if fl then !((mFmt cfg == 0 && mWidth cfg == 0) || ((mFmt cfg == 1 || mFmt cfg == 2) && mWidth cfg == 2)) else mWidth cfg == 2) ||
    ((p == 18 || p == 19) && decide (mSpace cfg ≠ 0)) || (p != 19 && decide (4 < mScope cfg))

/-! ### Addresses and their faults (R223) -/

/-- An access: its address, size and alignment, and what it needs of its leaf. -/
structure Want where
  va : Nat
  n : Nat
  align : Nat
  kind : AccKind
deriving DecidableEq, Repr


def Piece.unc (p : Piece) : Bool := p.space == 0 && pteCA p.entry == 2
def Piece.through (p : Piece) : Bool := p.space == 0 && pteCA p.entry == 1
/-- The retention hint: a streaming leaf overrides cfg (R398). -/
def Piece.hint (p : Piece) (cfg : Nat) : Nat := if pteCA p.entry = 3 then 1 else mHint cfg

/-- A fault of an access: cause, and the first faulting byte's address. -/
def accTrap (cause va : Nat) : Trap := { cause := cause, addr := some (BitVec.ofNat 64 va) }

/-- A PERMISSION fault of an access that no entry decides, with what XFSTAT records (R223, R390, R404). (DEDUCED, log entry 97.) -/
def permTrap (k : AccKind) (va : Nat) : Trap := { accTrap cPERMISSION va with xfstat := some (xfstatOf ⟨cPERMISSION, 7, 0⟩ k) }

/-- Check one access and find its bytes (R223). (DEDUCED, log entry 29.) -/
def State.locate (s : State) (core x space : Nat) (w : Want) : Except Trap (State × Piece) :=
  if w.va % w.align ≠ 0 then .error (accTrap cALIGNMENT w.va)
  else if space = 0 then
    match s.translate (s.ctxAgent core x) w.kind w.va with
    | .error f => .error { accTrap f.cause w.va with xfstat := some (xfstatOf f w.kind) }
    | .ok (s, t) => .ok (s, { va := w.va, n := w.n, space := 0, addr := t.pa, entry := t.entry, ad := t.ad })
  else if space = 1 then
    if 2 ^ 20 ≤ w.va then .error (accTrap cALIGNMENT w.va)
    else
      let size := (s.core core).scratchSize
      if size < w.va + w.n then .error (permTrap w.kind (max w.va size))
      else .ok (s, { va := w.va, n := w.n, space := 1, core := core, addr := w.va })
  else
    if 2 ^ 28 ≤ w.va ∨ fld w.va 23 20 ≠ 0 then .error (accTrap cALIGNMENT w.va)
    else
      let off := w.va % 2 ^ 20
      match s.peerCore core (w.va / 2 ^ 24) with
      | none => .error (permTrap w.kind w.va)
      | some k =>
        let size := (s.core k).scratchSize
        if size < off + w.n then .error (permTrap w.kind (w.va - off + max off size))
        else .ok (s, { va := w.va, n := w.n, space := 2, core := k, addr := off })

/-- Check accesses in order; the first that faults ends the check (R230). -/
def State.locateAll (core x space : Nat) : List Want → State → Except Trap (State × List Piece)
  | [], s => .ok (s, [])
  | w :: t, s =>
    match s.locate core x space w with
    | .error e => .error e
    | .ok (s, p) =>
      match State.locateAll core x space t s with
      | .error e => .error e
      | .ok (s, ps) => .ok (s, p :: ps.map (fun q => { q with no := q.no + p.n }))

/-! ### Reading bytes -/


/-- The page of a global piece was last written under another key id (R399). -/
def State.mixedKey (s : State) (p : Piece) : Bool := s.mixedAt p.addr p.entry

/-- A global piece reads or writes through a key id with no installed key (R399). (DESIGN CHOICE, log entry 19.) -/
def State.noKey (s : State) (p : Piece) : Bool := p.space == 0 && !(s.hasKey (pteKey p.entry))

/-- A global piece lies in the registers of region 10 (R388). -/
def Piece.isReg (p : Piece) : Bool := p.space == 0 && paReg p.addr

/-- The home of a piece does not answer (R423, R434). -/
def State.deadPiece (s : State) (p : Piece) : Bool := p.space == 0 && s.deadHome p.addr

/-- One byte of a piece, as the context reads it (R225, R263). -/
def State.pieceByte (s : State) (core x : Nat) (p : Piece) (i : Nat) : Byte :=
  let a := p.addr + i
  match (s.ctx core x).heldByte p.space p.core a with
  | some b => b
  | none =>
    if p.space ≠ 0 then s.scratchByte p.core a
    else if p.isReg then BitVec.ofNat 8 ((s.region10Read (p.addr % 2 ^ 44) p.n).toNat / 256 ^ i)
    else if s.mixedKey p || s.deadPiece p then Config.mixedKeyByte (s.freeCtr + p.no + i)
    else if p.unc then s.uncByte a
    else s.l1Byte core a

/-- The bytes of a piece. -/
def State.pieceBytes (s : State) (core x : Nat) (p : Piece) : List Byte := (List.range p.n).map (s.pieceByte core x p)

/-- A byte of a piece lies in a granule that is poisoned where the context reads it (R409, R410). A granule that one of the context's
own held stores covers whole is not (R136, R411). -/
def State.byteMarked (s : State) (core x : Nat) (p : Piece) (a : Nat) : Bool :=
  (if p.space ≠ 0 then (s.core p.core).scratchPoison.contains (a / 32)
   else if p.isReg then false
   else if p.unc then (if paOff a then s.poison.contains (a / 32) else s.homeMarked a)
   else s.l1Marked core a)
  && !((s.ctx core x).heldStores.any (fun h =>
    (h.space == 0) == (p.space == 0) && (p.space == 0 || h.core == p.core) && covers h.cells (a / 32)))

/-- The address of the first byte of a piece that lies in a poisoned granule (R410); every byte of a piece without a key, or whose home
does not answer, is poisoned (R399, R423, R434). -/
def State.pieceMark (s : State) (core x : Nat) (p : Piece) : Option Dw :=
  if s.noKey p || s.deadPiece p then some (BitVec.ofNat 64 p.va)
  else ((List.range p.n).find? (fun i => s.byteMarked core x p (p.addr + i))).map (fun i => BitVec.ofNat 64 (p.va + i))

/-- What loads do to the caches: each line comes in (R222), an uncached or scratchpad one does not. -/
def State.touchLines (s : State) (core cfg : Nat) (ps : List Piece) : State :=
  ps.foldl (fun a p =>
    if p.space ≠ 0 ∨ p.unc ∨ p.isReg ∨ a.deadPiece p then a else a.l1Fill core (p.addr / 128) (p.hint cfg)) s

/-- The data of these pieces is at hand: scratchpads, and global bytes that hit the L1 (R35). -/
def State.atHand (s : State) (core : Nat) (ps : List Piece) : Bool :=
  ps.all (fun p => p.space != 0 || (!p.unc && s.l1Hit core [p.addr, p.addr + p.n - 1]))

/-- The latency of a load or atomic by unit and space (R28). -/
def memLatency (u space : Nat) : Nat :=
  if u = 4 then (if space = 1 then 6 else if space = 2 then 40 else 12)
  else if u = 5 then (if space = 1 then 8 else if space = 2 then 42 else 14)
  else (if space = 1 then 8 else if space = 2 then 44 else 32)

/-- A context's stores on their way to these bytes of other cores' scratchpads arrive before its own access to them (R225). -/
def State.ownOrder (s : State) (core x : Nat) (ps : List Piece) : State :=
  ps.foldl (fun a p => if p.space = 2 then a.flushBytes core x p.core p.addr p.n else a) s

/-- A load's result: value, poison mark, and whether its data is at hand; the acquire of ORD 01 (R221) follows.
(DEDUCED, log entry 60.) -/
def State.loadResult (s : State) (core x : Nat) (g : Trig) (cfg : Nat) (ps : List Piece) (v : Val) : State :=
  let space := mSpace cfg
  let mark := ps.findSome? (s.pieceMark core x)
  let dead := ps.any s.deadPiece
  let hand := s.atHand core ps && !dead
  let mixed := dead || ps.any (fun p => p.space == 0 && s.mixedKey p)
  let s := s.modCtx core x (fun c => c.push
    { due := c.count + memLatency g.unit space, born := c.count, unit := rankUnit g.unit, dest := g.dest, val := some v
      mark := mark, arrived := hand, dead := dead })
  let s := if mixed then { s with freeCtr := s.freeCtr + 4096 } else s
  let s := s.touchLines core cfg ps
  if ordAcq (mOrd cfg) then s.acquire core (mScope cfg) else s

/-! ### Stores -/

/-- The cells of a piece and its bytes. -/
def Piece.cells (p : Piece) (bs : List Byte) : Cells := cellsAt p.addr (bs.take p.n)

/-- A piece with its bytes as a part of a store (R398, R399). -/
def Piece.part (p : Piece) (cfg : Nat) (bs : List Byte) : StorePart :=
  { bytes := p.cells bs, through := p.through, unc := p.unc, reg := p.isReg, hint := p.hint cfg
    key := if p.space = 0 then some (pteKey p.entry) else none, leaf := if p.space = 0 then some (p.ad, p.entry) else none }

/-- The same parts of memory in the same way. -/
def StorePart.like (p q : StorePart) : Bool :=
  !p.reg && !q.reg && p.through == q.through && p.unc == q.unc && p.hint == q.hint && p.key == q.key && p.leaf == q.leaf

/-- Neighbouring parts that go the same way are one. -/
def joinParts : List StorePart → List StorePart
  | [] => []
  | p :: t =>
    match joinParts t with
    | [] => [p]
    | q :: r => if p.like q then { q with bytes := p.bytes ++ q.bytes } :: r else p :: q :: r

/-- One store of a trigger: the pieces and the bytes of each, in ascending element order. A space-2 store that names several
cores leaves as one store for each. -/
def State.storeAll (s : State) (core x cfg : Nat) (ps : List (Piece × List Byte)) : State :=
  let rel := if ordRel (mOrd cfg) then some (mScope cfg) else none
  match ps with
  | [] => (match rel with
    | some sc => s.release core x sc none
    | none => s)
  | p0 :: _ =>
    let cores := (ps.map (fun p => p.1.core)).eraseDups
    cores.foldl (fun a k =>
      let mine := ps.filter (fun p => p.1.core == k)
      a.putStore core x { space := mSpace cfg, core := k, parts := joinParts (mine.map (fun p => p.1.part cfg p.2))
                          rel := if k = p0.1.core then rel else none, ctx := x, more := k != p0.1.core }) s

/-! ### LS (R226 to R228) -/

/-- EA := WRAP64(t + a). -/
def Trig.ea (g : Trig) : Nat := (g.ts + g.sa).toNat

/-- Bytes of an LS load or store. -/
def lsSize (p : Nat) : Nat :=
  match p with
  | 4 => 1 | 5 => 1 | 6 => 2 | 7 => 2 | 8 => 4 | 9 => 4 | 10 => 8 | 11 => 1 | 12 => 2 | 13 => 4 | 14 => 8 | _ => 1

/-- The accesses an LS trigger checks. -/
def lsWants (g : Trig) : List Want :=
  let n := lsSize g.port
  if g.port ≤ 10 then [{ va := g.ea, n := n, align := n, kind := accRead }]
  else if g.port ≤ 14 then [{ va := g.ea, n := n, align := n, kind := accWrite }]
  else if g.port = 17 ∨ g.port = 18 then [{ va := g.ea, n := 1, align := 1, kind := accRead }]
  else []

/-- A loaded number, sign- or zero-extended (R226). -/
def lsExtend (p v : Nat) : Dw :=
  match p with
  | 4 => BitVec.ofInt 64 (toSigned 8 v)
  | 6 => BitVec.ofInt 64 (toSigned 16 v)
  | 8 => BitVec.ofInt 64 (toSigned 32 v)
  | _ => BitVec.ofNat 64 v

/-- pref of one line (R228): a translation that fails drops the request, and so does a stack that is not ready. -/
def State.prefLine (s : State) (core x cfg va : Nat) : State :=
  if mSpace cfg ≠ 0 then s
  else match s.locate core x 0 { va := va, n := 1, align := 1, kind := accRead } with
  | .error _ => s
  | .ok (s, p) => if s.stackReady p.addr then s.touchLines core cfg [p] else s

/-- wbl and invl (R228). -/
def State.lineOp (s : State) (core port : Nat) (p : Piece) : State :=
  if p.space ≠ 0 ∨ p.unc ∨ p.isReg then s
  else if port = 17 then s.writeBackLine core (p.addr / 128)
  else s.invalidateLine core (p.addr / 128)

/-- fence (R227). -/
def State.fence (s : State) (core x cfg : Nat) : State :=
  let s := if ordRel (mOrd cfg) then s.release core x (mScope cfg) none else s
  if ordAcq (mOrd cfg) then s.acquire core (mScope cfg) else s

/-- A trigger of LS whose accesses have passed their checks. -/
def lsRun (core x : Nat) (g : Trig) (r : State × Fx) : State × Fx :=
  let cfg := g.cfg.toNat
  if g.port = 15 then (r.1.fence core x cfg, r.2)
  else if g.port = 16 then (r.1.prefLine core x cfg g.ea, r.2)
  else
    let ps := r.2.of 4
    match ps with
    | [] => r
    | p :: _ =>
      if g.port ≤ 10 then
        let s := r.1.ownOrder core x ps
        (s.loadResult core x g cfg ps (.s (lsExtend g.port (natOfBytes (s.pieceBytes core x p)))), r.2)
      else if g.port ≤ 14 then (r.1.storeAll core x cfg [(p, bytesOf p.n g.sb.toNat)], r.2)
      else (r.1.lineOp core g.port p, r.2)

/-! ### LV (R229, R230) -/

/-- Bytes of one element, and elements in a vector. -/
def lvEsize (cfg : Nat) : Nat := 2 ^ mEsz cfg
def lvCount (cfg : Nat) : Nat := 512 / lvEsize cfg

/-- A signed 64-bit sum that wraps. -/
def wrapAdd (a : Nat) (i : Int) : Nat := wrapInt 64 ((a : Int) + i)

/-- The address of element i of a strided or indexed access. -/
def lvElemAddr (g : Trig) (i : Nat) : Nat :=
  if g.port = 8 ∨ g.port = 9 then wrapAdd g.sa.toNat (toSigned 32 (elem 32 g.tv.toNat i))
  else wrapAdd g.ts.toNat ((i : Int) * g.sa.toInt)

/-- The lanes that vldm and vstm touch. -/
def lvLanes (m : Mask) : List Nat := (List.range 128).filter (fun i => maskBit m i)

/-- The accesses an LV trigger checks, in order; `m` is the mask register MREG names. Those of vldm and vstm are checked on each touched
lane's own address, the other bits of a space-1 or space-2 address included (DESIGN CHOICE, log entry 106). -/
def lvWants (g : Trig) (m : Mask) : List Want :=
  let cfg := g.cfg.toNat
  let ea := g.ea
  match g.port with
  | 4 => (List.range 8).map (fun i => { va := (ea + 64 * i) % 2 ^ 64, n := 64, align := 64, kind := accRead })
  | 5 => (List.range 8).map (fun i => { va := (ea + 64 * i) % 2 ^ 64, n := 64, align := 64, kind := accWrite })
  | 6 => (List.range (lvCount cfg)).map (fun i => { va := lvElemAddr g i, n := lvEsize cfg, align := lvEsize cfg, kind := accRead })
  | 7 => (List.range (lvCount cfg)).map (fun i => { va := lvElemAddr g i, n := lvEsize cfg, align := lvEsize cfg, kind := accWrite })
  | 8 => (List.range 128).map (fun i => { va := lvElemAddr g i, n := 4, align := 4, kind := accRead })
  | 9 => (List.range 128).map (fun i => { va := lvElemAddr g i, n := 4, align := 4, kind := accWrite })
  | 10 => [{ va := ea, n := lvEsize cfg, align := lvEsize cfg, kind := accRead }]
  | 11 => lanes (lvLanes m) ea accRead
  | 12 => lanes (lvLanes m) ea accWrite
  | _ => []
where
  /-- One access for each touched lane, the whole being aligned to 64. -/
  lanes (ls : List Nat) (ea : Nat) (k : AccKind) : List Want :=
    if ea % 64 ≠ 0 ∧ !ls.isEmpty then [{ va := ea, n := 4, align := 64, kind := k }]
    else ls.map (fun i => { va := (ea + 4 * i) % 2 ^ 64, n := 4, align := 4, kind := k })

/-- The number of the bytes that pieces read, piece after piece. -/
def State.piecesNat (s : State) (core x : Nat) (ps : List Piece) : Nat := natOfBytes (ps.flatMap (s.pieceBytes core x))

/-- The value of an LV load from its pieces. -/
def State.lvValue (s : State) (core x : Nat) (g : Trig) (m : Mask) (ps : List Piece) : Vec :=
  let v := s.piecesNat core x ps
  match g.port with
  | 10 => vecOf (repNat (8 * lvEsize g.cfg.toNat) v (lvCount g.cfg.toNat))
  | 11 => vecOf (((lvLanes m).zip (unpackElems 32 v ps.length)).foldl (fun a e => a + e.2 * 2 ^ (32 * e.1)) 0)
  | _ => vecOf v

/-- The bytes an LV store writes for each of its pieces. -/
def lvData (g : Trig) (m : Mask) (ps : List Piece) : List (Piece × List Byte) :=
  let b := g.b.toNat
  match g.port with
  | 12 => (ps.zip (lvLanes m)).map (fun e => (e.1, bytesOf 4 (elem 32 b e.2)))
  | _ => (ps.zip (List.range ps.length)).map (fun e => (e.1, bytesOf e.1.n (elem (8 * e.1.n) b e.2)))

/-- A trigger of LV whose accesses have passed their checks. -/
def lvRun (core x : Nat) (g : Trig) (r : State × Fx) : State × Fx :=
  let cfg := g.cfg.toNat
  let m := (r.1.ctx core x).bank.mreg (mMreg cfg)
  if g.port = 13 then
    ((List.range 5).foldl (fun a i => a.prefLine core x cfg (min (g.ea + 128 * i) (g.ea + 511) % 2 ^ 64)) r.1, r.2)
  else
    let ps := r.2.of 5
    if lvLoads g.port then
      let s := r.1.ownOrder core x ps
      (s.loadResult core x g cfg ps (.v (s.lvValue core x g m ps)), r.2)
    else (r.1.storeAll core x cfg (lvData g m ps), r.2)

/-! ### AT (R231 to R235) -/

/-- Bits of WIDTH. -/
def atBits (cfg : Nat) : Nat := if mWidth cfg = 0 then 32 else if mWidth cfg = 1 then 64 else 16

/-- The new value of an atomic, none when nothing is written, with its flags (R231, R232, R234). -/
def atNew (p w f old x y : Nat) : Option Nat × Flags :=
  let so := toSigned w old; let sx := toSigned w x
  match p with
  | 4 => (some ((old + x) % 2 ^ w), 0)
  | 5 => (if old < x then some (old + 1) else none, 0)
  | 6 => (if old = x then some y else none, 0)
  | 7 => (some x, 0)
  | 8 => (some (old &&& x), 0)
  | 9 => (some (old ||| x), 0)
  | 10 => (some (old ^^^ x), 0)
  | 11 => (some (if sx < so then x else old), 0)
  | 12 => (some (if so < sx then x else old), 0)
  | 13 => (some (min old x), 0)
  | 14 => (some (max old x), 0)
  | 15 => let r := arithElem 4 f 0 false 0 old x 0; (some r.1, r.2)
  | 16 => let r := minmaxElem false f old x; (some r.1, r.2)
  | 17 => let r := minmaxElem true f old x; (some r.1, r.2)
  | 18 => (if old = x then some y else none, 0)
  | _ => (none, 0)

/-- The access an AT trigger checks: every operation but apld needs write permission (R234). -/
def atWants (g : Trig) : List Want :=
  let n := atBits g.cfg.toNat / 8
  [{ va := g.ts.toNat, n := n, align := n, kind := if g.port = 19 then accRead else accRmw }]

/-- An operation on region 01 that PCIe has no atomic for (R390). -/
def atNoLink (p cfg : Nat) (q : Piece) : Bool :=
  q.space == 0 && paRegion q.addr == 1 && !Config.cxlCache && !((p == 4 || p == 6 || p == 7) && mWidth cfg != 2)

/-- An operation that leaves as a PCIe atomic and is performed in host memory (R390). -/
def Piece.overLink (q : Piece) : Bool := q.space == 0 && paRegion q.addr == 1 && !Config.cxlCache

/-- Before a PCIe atomic on a line of region 01, the bytes of the line that the device's L2 holds dirty reach host memory, so that
the atomics of the device read one another's writes (R270). -/
def State.beforeLink (s : State) (line : Nat) : State :=
  if paRegion (line * 128) == 1 && !Config.cxlCache then s.l2CleanLine line else s

/-- Exclusive ownership of the line (R231, R270): its dirty bytes leave every L1 of the device, and the line with them. -/
def State.ownLine (s : State) (line : Nat) : State := (s.purgeLine (s.cores.map (·.1)) line).beforeLink line

/-- A byte of the old value at the home, or in a scratchpad, over the context's own held stores (R225, R231). -/
def State.atByte (s : State) (core x : Nat) (q : Piece) (i : Nat) : Byte :=
  let a := q.addr + i
  match (s.ctx core x).heldByte q.space q.core a with
  | some b => b
  | none =>
    if q.space ≠ 0 then s.scratchByte q.core a
    else if q.isReg then BitVec.ofNat 8 ((s.region10Read (q.addr % 2 ^ 44) q.n).toNat / 256 ^ i)
    else if s.mixedKey q || s.deadPiece q then Config.mixedKeyByte (s.freeCtr + q.no + i)
    else if q.unc || q.overLink then s.uncByte a
    else s.homeByte a

/-- The old bits of an atomic. -/
def State.atOld (s : State) (core x : Nat) (q : Piece) : Nat := natOfBytes ((List.range q.n).map (s.atByte core x q))

/-- The old value lies in a poisoned granule at its home (R410). -/
def State.atMark (s : State) (core x : Nat) (q : Piece) : Option Dw :=
  if q.space ≠ 0 ∨ q.unc ∨ q.isReg then s.pieceMark core x q
  else if s.noKey q || s.deadPiece q || s.homeMarked q.addr then some (BitVec.ofNat 64 q.va) else none

/-- The write of an atomic; the context's held stores to those bytes come before it (R225). -/
def State.atWrite (s : State) (core x : Nat) (q : Piece) (v : Nat) : State :=
  let cs := cellsAt q.addr (bytesOf q.n v)
  let s := if q.space = 0 then s else s.keepUnder core x q.core cs
  let s := s.yieldHeld core x q.space q.core cs
  if q.space ≠ 0 then s.scratchWrite q.core cs
  else s.leafStore (q.unc || q.overLink) q.entry cs

/-- The read-modify-write itself with its release: `new` is written when there is one (R231, R277, R280). -/
def State.atCommit (s : State) (core x : Nat) (rel : Option Nat) (q : Piece) (new : Option Nat) : State :=
  match rel with
  | none => (match new with
    | some v => s.atWrite core x q v
    | none => s)
  | some sc =>
    let s := s.beforeRelease core x sc
    let line := if q.space = 0 then some (q.addr / 128) else none
    if 3 ≤ sc then
      let s := s.takeGen core x sc none
      match new with
      | some v => s.atWrite core x q v
      | none => s
    else
      let g := (s.core core).gen
      let s := match new with
        | some v => let s := s.atWrite core x q v; if q.space = 0 then s.putTags core g (cellsAt q.addr (bytesOf q.n v)) else s
        | none => s
      s.takeGen core x sc line

/-- The promotion request that a promote-acquire must send: the value's tag, when it names another core of the device whose
generation is not known to be drained (R281). -/
def State.promoTag (s : State) (core : Nat) (q : Piece) : Option (Nat × Nat) :=
  match s.tagAt q.addr q.n with
  | some t => if t.1 ≠ core then some t else none
  | none => none

/-- The waiting promote-acquires of the context are one more. -/
def Ctx.ask (c : Ctx) : Ctx := { c with asked := c.asked + 1 }

/-- A promote-acquire of the context waits for its acknowledgement: what the context does to memory after it comes after its acquire (R266,
R281; DEDUCED, log entry 123). -/
def Core.promises (k : Core) (x : Nat) : Bool := k.promos.any (fun p => p.ctx == x)

/-- A promotion request goes to core w for generation g and enters its list in arrival order (R281, R282). What that core has on its way to
other cores arrives: the requesting bundle's own SA trigger and dispatches come after the acquire (R225, R266). -/
def State.sendPromo (s : State) (core : Nat) (p : Promo) : State :=
  let s := (s.arriveAll p.target).modCore core (fun k => { k with promos := k.promos ++ [p] })
  s.modCore p.target (fun k => { k with preqs := k.preqs ++ [(core, p.gen)] })

/-- The location as an atomic obtains it: its own stores on their way arrive, and the line's dirty bytes come home (R225, R231). -/
def State.atTake (s : State) (core x : Nat) (q : Piece) : State :=
  let s := s.ownOrder core x [q]
  if q.space = 0 ∧ !q.unc ∧ !q.isReg then s.ownLine (q.addr / 128) else s

/-- The waiting promote-acquire that an apcas or apld leaves when its value carries another core's tag (R281). -/
def atPromo (x : Nat) (g : Trig) (q : Piece) (t : Nat × Nat) (old : Nat) (mark : Option Dw) (rel : Option Nat) (no since : Nat) : Promo :=
  let w := atBits g.cfg.toNat
  { ctx := x, no := no, target := t.1, gen := t.2, va := q.va, pa := q.addr, width := w, entry := BitVec.ofNat 64 q.entry, ad := q.ad
    cas := g.port == 18, cmp := BitVec.ofNat 64 (g.sa.toNat % 2 ^ w), new := BitVec.ofNat 64 (g.sb.toNat % 2 ^ w), rel := rel
    old := old, mark := mark, since := since }

/-- A trigger of AT whose access has passed its checks. -/
def atRun (core x : Nat) (g : Trig) (r : State × Fx) : State × Fx :=
  let cfg := g.cfg.toNat
  match r.2.of 6 with
  | [] => r
  | q :: _ =>
    let w := atBits cfg
    let space := mSpace cfg
    let s := r.1.atTake core x q
    let old := s.atOld core x q
    let a := g.sa.toNat % 2 ^ w
    let b := g.sb.toNat % 2 ^ w
    let mark := s.atMark core x q
    let dead := s.deadPiece q
    let rel := if g.port ≠ 19 ∧ ordRel (mOrd cfg) then some (mScope cfg) else none
    let promote : Option (Nat × Nat) := if (g.port = 18 ∨ g.port = 19) ∧ !dead then s.promoTag core q else none
    let f (s : State) (v : Nat) (fl : Flags) : Flight :=
      let c := s.ctx core x
      { due := c.count + memLatency 6 space, born := c.count, unit := rankUnit 6, dest := g.dest
        val := some (.s (BitVec.ofNat 64 v)), mark := mark, flags := fl, dead := dead }
    match promote with
    | some t =>
      let c := s.ctx core x
      let s := s.modCtx core x (fun c => c.ask.push { f s 0 0 with arrived := false, promo := some c.asked })
      (s.sendPromo core (atPromo x g q t old mark rel c.asked s.time), r.2)
    | none =>
      let n := if mark.isSome ∨ dead then (none, 0) else atNew g.port w (mFmt cfg) old a b
      let s := if g.port = 18 ∨ g.port = 19 then s.acquire core 3 else s
      let rel := if g.port = 18 ∧ n.1.isNone then none else rel
      let s := s.atCommit core x rel q n.1
      let s := if space = 0 ∧ (s.mixedKey q ∨ dead) then { s with freeCtr := s.freeCtr + 4096 } else s
      let refused := g.port == 5 && decide (a ≤ old)
      let s := s.modCtx core x (fun c => c.push { f s old n.2 with bound := refused, arrived := !dead })
      let s := if g.port ≠ 18 ∧ g.port ≠ 19 ∧ ordAcq (mOrd cfg) then s.acquire core (mScope cfg) else s
      (s, r.2)

end Sys2Proof.Machine
end

