-- ==== Sys2Proof/Machine/StreamAcc.lean ====
section
/-! DEFINITION. SA and the stream accumulator store (R236 to R244, R306 to R320): handles, headers, row groups, exact adds, the
normalising read, images, and sstt. -/

namespace Sys2Proof.Machine

/-! ### Configuration and handles (R236, R237, R239) -/

def saFmt (cfg : Nat) : Nat := fld cfg 3 0
def saOfmt (cfg : Nat) : Nat := fld cfg 7 4
def saLn (cfg : Nat) : Bool := bitOf cfg 8
def saGam (cfg : Nat) : Bool := bitOf cfg 9
def saBet (cfg : Nat) : Bool := bitOf cfg 10
def saEfmt (cfg : Nat) : Nat := fld cfg 12 11
def saSat (cfg : Nat) : Bool := bitOf cfg 13

/-- The input formats of sadd, and the result formats of srdn and NORM (R237). -/
def saFmtOk (f : Nat) : Bool := f ≤ 4 || f == 6 || f == 7 || f == 8 || f == 10
def saOfmtOk (f : Nat) : Bool := f == 0 || f == 1 || f == 2 || f == 4

/-- An SA trigger's cfg raises ILLEGAL_MOVE (R111, R237). -/
def saIllegal (p cfg : Nat) : Bool :=
  decide (cfg / 2 ^ 14 ≠ 0) ||
    (match p with
     | 4 => !(saFmtOk (saFmt cfg))
     | 6 => !(saOfmtOk (saOfmt cfg))
     | 9 => saEfmt cfg == 3 || (saEfmt cfg == 2 && !(saOfmtOk (saOfmt cfg)))
     | 10 => saEfmt cfg == 3
     | _ => false)

/-- The handle of an SA trigger: port a of sadd, saddc and shdr, t of the others. -/
def saHandle (g : Trig) : Nat := (if g.port = 4 ∨ g.port = 5 ∨ g.port = 7 then g.sa else g.ts).toNat
def hRow (h : Nat) : Nat := fld h 7 0
def hCore (h : Nat) : Nat := fld h 11 8
def hElem (h : Nat) : Nat := fld h 27 16

/-- The elements an sadd adds (R240). -/
def saddCount (h m : Nat) : Nat := if fld h 41 32 = 0 then m else fld h 41 32

/-- The trap of an operand that an SA trigger checks (R236, R239, R240). The PERMISSION of a handle's CORE (R236), which R119 does not name,
ranks with the slot's other operand checks (DESIGN CHOICE, log entry 104). -/
def State.saOperand (s : State) (core : Nat) (g : Trig) : Option Nat :=
  let h := saHandle g
  if s.rowsOf core ≤ hRow h then some cILLEGAL_MOVE
  else if fld h 15 12 ≠ 0 ∨ fld h 31 28 ≠ 0 ∨ (if g.port = 4 then fld h 63 42 else fld h 63 32) ≠ 0 then some cILLEGAL_MOVE
  else if 7 ≤ g.port ∧ hElem h ≠ 0 then some cILLEGAL_MOVE
  else if g.port = 4 ∧ elemCount (saFmt g.cfg.toNat) < fld h 41 32 then some cILLEGAL_MOVE
  else if g.port = 5 ∧ (fld g.ts.toNat 3 3 ≠ 0 ∨ 256 ≤ g.ts.toNat) then some cILLEGAL_MOVE
  else match s.peerCore core (hCore h) with
  | none => some cPERMISSION
  | some _ =>
    if (g.port = 6 ∨ 9 ≤ g.port) ∧ hCore h ≠ (s.core core).logical then some cPERMISSION else none

/-! ### Rows and groups (R238, R306 to R308) -/

def SaRow.len (r : SaRow) : Nat := fld r.header.toNat 12 0
def SaRow.gbase (r : SaRow) : Nat := fld r.header.toNat 23 20
def SaRow.gcnt (r : SaRow) : Nat := fld r.header.toNat 27 24
def SaRow.gidx (r : SaRow) : Nat := fld r.header.toNat 31 28
def SaRow.eps (r : SaRow) : Nat := fld r.header.toNat 63 32

/-- Elements of the valid rows of a core. -/
def Core.saUsed (k : Core) (except : Nat) : Nat :=
  k.sa.foldl (fun a e => if e.2.valid ∧ e.1 ≠ except then a + e.2.len else a) 0

/-- The header word is valid for a row of a core (R238). -/
def Core.headerOk (k : Core) (row h : Nat) : Bool :=
  decide (fld h 19 13 = 0) && decide (fld h 31 28 ≤ fld h 27 24) && decide (fld h 23 20 + fld h 27 24 ≤ 15)
    && decide (1 ≤ fld h 12 0) && decide (fld h 12 0 ≤ 4096) && decide (k.saUsed row + fld h 12 0 ≤ Config.saSlots)

/-- shdr (R243). -/
def State.shdr (s : State) (core row : Nat) (h : Dw) : State :=
  let ok := (s.core core).headerOk row h.toNat
  s.modSaRow core row (fun _ => { header := h, valid := ok, err := !ok })

/-- The row with elements, sums and flags cleared (R243, R320). -/
def SaRow.clear (r : SaRow) : SaRow := { header := r.header, valid := r.valid }

/-- The segments of a row's group, when GRP is 1 (R238, R308): those of cores GBASE to GBASE + GCNT of the launch, with distinct GIDX. -/
def State.saGroup (s : State) (core row : Nat) : Option (List SaRow) :=
  let r := s.saRow core row
  let b := r.gbase
  let me := (s.core core).logical
  if !r.valid || decide (me < b) || decide (b + r.gcnt < me) then none
  else
    let seg (k : Nat) : Option SaRow :=
      match s.peerCore core (b + k) with
      | none => none
      | some c => let q := s.saRow c row; if q.valid && q.gbase == b && q.gcnt == r.gcnt then some q else none
    let segs := (List.range (r.gcnt + 1)).map seg
    let g := segs.filterMap id
    if segs.all Option.isSome ∧ (List.range (r.gcnt + 1)).all (fun i => g.any (fun q => q.gidx == i)) then some g else none

/-- The row of a core belongs to the group of a valid row of another core: both lie on cores GBASE to GBASE + GCNT of the launch, and both
headers are valid and name the same GBASE and GCNT (R308). -/
def State.inGroup (s : State) (core row c : Nat) : Bool :=
  let r := s.saRow core row
  let q := s.saRow c row
  let me := (s.core core).logical
  r.valid && decide (r.gbase ≤ me) && decide (me ≤ r.gbase + r.gcnt) && q.valid && q.gbase == r.gbase && q.gcnt == r.gcnt

/-- The row's segment is poisoned, or some segment of its group (R320). -/
def State.groupPoison (s : State) (core row : Nat) : Bool :=
  let r := s.saRow core row
  r.poison || (List.range (r.gcnt + 1)).any (fun k =>
    match s.peerCore core (r.gbase + k) with
    | some c => s.inGroup core row c && (s.saRow c row).poison
    | none => false)

/-- ERR of a row is set. -/
def SaRow.fail (r : SaRow) : SaRow := { r with err := true }

/-- n, T and S of a group. -/
def groupN (g : List SaRow) : Nat := g.foldl (fun a r => a + r.len) 0
def groupT (g : List SaRow) : Int := g.foldl (fun a r => a + r.t) 0
def groupS (g : List SaRow) : Nat := g.foldl (fun a r => a + r.sq) 0

/-- n of the row's group when GRP is 1, otherwise 0. -/
def State.saN (s : State) (core row : Nat) : Nat :=
  match s.saGroup core row with
  | some g => groupN g
  | none => 0

/-! ### Adds (R240) -/

/-- Element steps of one add leave for their segment: at once on the issuing core, else they travel (R309).
(DEDUCED, log entry 59; DEDUCED, log entry 74.) -/
def State.saAdd (s : State) (core dst row e0 : Nat) (poison : Bool) (xs : List Ex) : State :=
  let steps := (xs.zip (List.range xs.length)).map (fun e =>
    let q := q16 e.1
    ({ core := dst, row := row, elem := e0 + e.2, add := q.1, sat := q.2.1, nan := q.2.2, poison := poison, src := core } : SaStep))
  if dst = core then steps.foldl State.applyStep s else { s with saSteps := s.saSteps ++ steps }

/-! ### The normalising read (R310 to R312) -/

/-- r of R310 and R311, or none when every element is a NaN. -/
def saScale (ln : Bool) (eps : Nat) (n : Nat) (t : Int) (sq : Nat) : Option Ex :=
  let v : Ex :=
    if ln then
      let num : Int := (n : Int) * sq - t * t
      rne32v (Ex.mk (decide (num < 0)) num.natAbs (n * n * 2 ^ 48))
    else rne32v (Ex.mk false sq (n * 2 ^ 48))
  match rne32v (exAdd false v (valFloat 0 eps)).1 with
  | .inf false => some (.zero false)
  | .fin false p q => some (valFloat 0 (vfElem 4 0 (rne32 (.fin false p q))).1)
  | _ => none

/-- u[e] of R310 and R311. -/
def saUnit (ln : Bool) (n : Nat) (t : Int) (r : Ex) (x : Int) : Ex :=
  match r with
  | .fin _ p q =>
    let d : Int := if ln then (n : Int) * x - t else x
    rne32v (Ex.mk (decide (d < 0)) (d.natAbs * p) (q * 2 ^ 24 * (if ln then n else 1)))
  | _ => .zero false

/-- One delivered element, with its flags (R312). (DEDUCED, log entry 55.) -/
def saOut (ofmt : Nat) (sat : Bool) (r : Option Ex) (ln : Bool) (n : Nat) (t x : Int) (g b : Ex) : Nat × Flags :=
  match r with
  | none => (qnan ofmt, fNV)
  | some r =>
    let w := exMul (saUnit ln n t r x) g
    let w' := exAdd false w.1 b
    let o := rnd ofmt 0 sat false false 0 w'.1
    (o.1, w.2 ||| w'.2 ||| o.2 ||| sigFlag [g, b])

/-- Elements `e0` to `e0 + m − 1` of a segment, normalised with its group's sums; `gb e` gives G and B. Elements past LEN are
+0. -/
def saNorm (cfg : Nat) (row : SaRow) (grp : List SaRow) (e0 m : Nat) (gb : Nat → Ex × Ex) : List (Nat × Flags) :=
  let n := groupN grp
  let t := groupT grp
  let r := saScale (saLn cfg) row.eps n t (groupS grp)
  (List.range m).map (fun i =>
    if row.len ≤ e0 + i then (0, 0)
    else saOut (saOfmt cfg) (saSat cfg) r (saLn cfg) n t (Sp.get 0 row.elems (e0 + i)) (gb (e0 + i)).1 (gb (e0 + i)).2)

/-- The value 1 and the value 0, as G and B are without GAM and BET. -/
def exOne : Ex := .fin false 1 1

/-! ### Checksums -/

/-- One bit step of CRC-32C, reflected. -/
def crc32cBit (c : Nat) : Nat := if c % 2 = 1 then (c / 2) ^^^ 0x82F63B78 else c / 2

/-- CRC-32C of bytes: polynomial 0x1EDC6F41, reflected, initial value and final XOR all ones (R313, R330). -/
def crc32c (bs : List Byte) : Nat :=
  (bs.foldl (fun c b =>
    crc32cBit (crc32cBit (crc32cBit (crc32cBit (crc32cBit (crc32cBit (crc32cBit (crc32cBit (c ^^^ b.toNat)))))))))
    0xFFFFFFFF) ^^^ 0xFFFFFFFF

/-! ### Images (R244, R313 to R316) -/

def roundUp (x k : Nat) : Nat := (x + k - 1) / k * k

/-- Zero bytes up to a multiple of k. -/
def padTo (k : Nat) (bs : List Byte) : List Byte := bs ++ List.replicate (roundUp bs.length k - bs.length) 0

/-- Bytes of an image, and the alignment of its offset. An F32 image is padded to a multiple of 16, as R314 has it and R244's table does
not (DESIGN CHOICE, log entry 85). -/
def imageSize (efmt len ofmt : Nat) : Nat :=
  if efmt = 0 then roundUp (32 + 5 * len) 32
  else if efmt = 1 then roundUp (16 + 4 * len) 16
  else roundUp (len * fmtWidth ofmt / 8) 16
def imageAlign (efmt : Nat) : Nat := if efmt = 0 then 32 else 16

def SaRow.flagByte (r : SaRow) : Nat := (if r.satf then 1 else 0) + (if r.nanf then 2 else 0)
def SaRow.elemList (r : SaRow) : List Int := (List.range r.len).map (Sp.get 0 r.elems)

/-- An EXACT image of a segment (R313). -/
def exactImage (r : SaRow) (n : Nat) : List Byte :=
  let h := bytesOf 12 r.sq ++ bytesOf 9 (wrapInt 72 r.t) ++ bytesOf 2 r.len ++ bytesOf 3 n ++ bytesOf 1 r.flagByte ++ [1]
  let es := r.elemList.flatMap (fun x => bytesOf 5 (wrapInt 40 x))
  padTo 32 (h ++ bytesOf 4 (crc32c (h ++ es)) ++ es)

/-- An F32 image (R314). -/
def f32Image (r : SaRow) (n : Nat) : List Byte :=
  padTo 16 (bytesOf 2 r.len ++ bytesOf 3 n ++ bytesOf 1 r.flagByte ++ [2] ++ bytesOf 9 0
    ++ r.elemList.flatMap (fun x => bytesOf 4 (rne32 (exFixed x 24))))

/-- A NORM image (R315): G is 1 and B is 0. -/
def normImage (cfg : Nat) (r : SaRow) (grp : List SaRow) : List Byte :=
  let w := fmtWidth (saOfmt cfg)
  let cs := (saNorm cfg r grp 0 r.len (fun _ => (exOne, .zero false))).map (·.1)
  padTo 16 (cs.flatMap (fun c => bytesOf (w / 8) c))

/-- Bytes of an image reach the scratchpad in ascending units (R141, R244). -/
def State.emit (s : State) (core off : Nat) (bs : List Byte) : State :=
  (unitsOf (cellsAt off bs)).foldl (fun a u => a.scratchWrite core u) s

/-- Granules of a range of a scratchpad are marked (R320, R410). -/
def State.scratchMark (s : State) (core off n : Nat) : State :=
  s.modCore core (fun k => { k with scratchPoison :=
    (((List.range n).map (fun i => (off + i) / 32)).eraseDups).foldl addMark k.scratchPoison })

/-- An image is emitted: the context's held stores to those bytes come before it (R225). -/
def State.emitOver (s : State) (core x off : Nat) (bs : List Byte) : State :=
  ((s.keepUnder core x core (cellsAt off bs)).yieldHeld core x 1 core (cellsAt off bs)).emit core off bs

/-- sevt on the rows of one core (R244, R313 to R315, R320). -/
def State.sevtOwn (s : State) (core x row off cfg : Nat) : State :=
  let r := s.saRow core row
  let grp := s.saGroup core row
  let n := s.saN core row
  let fail := s.modSaRow core row SaRow.fail
  if !r.valid then fail
  else
    match saEfmt cfg, grp with
    | 2, none => fail
    | 2, some g => (s.emitOver core x off (normImage cfg r g)).modSaRow core row SaRow.clear
    | e, _ =>
      let img := if e = 0 then exactImage r n else f32Image r n
      let s := s.emitOver core x off img
      let s := if r.poison then s.scratchMark core off img.length else s
      s.modSaRow core row SaRow.clear

/-- sevt, in both twins of a tidelocked group (R45, R319). -/
def State.sevt (s : State) (core x row off cfg : Nat) : State := s.bothTwins core (fun s => s.sevtOwn core x row off cfg)

/-- The row that an image loads into r, whose group has n elements, if the image fits (R316). ERR stays as it was: the flags that R316
restores are SATF and NANF (DESIGN CHOICE, log entry 122). -/
def loadImage (efmt : Nat) (r : SaRow) (n : Nat) (im : List Byte) : Option SaRow :=
  let at_ (a k : Nat) : Nat := natOfBytes ((im.drop a).take k)
  let list (xs : List Int) : Sp Int := (xs.zip (List.range xs.length)).foldl (fun m e => Sp.set 0 m e.2 e.1) []
  let len := r.len
  if !r.valid then none
  else if efmt = 0 then
    if at_ 27 1 = 1 ∧ at_ 26 1 < 4 ∧ at_ 21 2 = len ∧ at_ 23 3 = n ∧ at_ 28 4 = crc32c (im.take 28 ++ (im.drop 32).take (5 * len)) then
      let xs := (List.range len).map (fun e => toSigned 40 (at_ (32 + 5 * e) 5))
      some { r with elems := list xs, sq := at_ 0 12, t := toSigned 72 (at_ 12 9), satf := bitOf (at_ 26 1) 0, nanf := bitOf (at_ 26 1) 1 }
    else none
  else if efmt = 1 then
    if at_ 6 1 = 2 ∧ at_ 7 9 = 0 ∧ at_ 5 1 < 4 ∧ at_ 0 2 = len ∧ at_ 2 3 = n then
      let qs := (List.range len).map (fun e => q16 (valFloat 0 (at_ (16 + 4 * e) 4)))
      let xs := qs.map (·.1)
      some { r with
        elems := list xs
        t := xs.foldl (· + ·) 0
        sq := xs.foldl (fun a x => a + x.natAbs * x.natAbs) 0
        satf := bitOf (at_ 5 1) 0 || qs.any (·.2.1)
        nanf := bitOf (at_ 5 1) 1 || qs.any (·.2.2) }
    else none
  else none

/-- sldr on the rows of one core (R316). A marked image poisons the segment. -/
def State.sldrOwn (s : State) (core x row off cfg : Nat) : State :=
  let r := s.saRow core row
  let size := imageSize (saEfmt cfg) r.len 0
  let v := s.viewOf core x
  match loadImage (saEfmt cfg) r (s.saN core row) (v.scratchRead core off size) with
  | none => s.modSaRow core row SaRow.fail
  | some r' =>
    let marked := (firstMarked (v.core core).scratchPoison ((List.range size).map (off + ·))).isSome
    s.modSaRow core row (fun q => { r' with poison := q.poison || marked })

/-- sldr, in both twins of a tidelocked group (R45, R319). -/
def State.sldr (s : State) (core x row off cfg : Nat) : State := s.bothTwins core (fun s => s.sldrOwn core x row off cfg)

/-! ### The operations (R239) -/

/-- The accesses of an SA trigger to its own scratchpad (R242, R244, R316). -/
def State.saWants (s : State) (core : Nat) (g : Trig) : List Want :=
  let cfg := g.cfg.toNat
  let r := s.saRow core (hRow (saHandle g))
  let len := if r.valid then r.len else 0
  match g.port with
  | 6 =>
    (if saGam cfg then [{ va := g.sa.toNat, n := 4 * len, align := 4, kind := accRead }] else []) ++
      (if saBet cfg then [{ va := g.sb.toNat, n := 4 * len, align := 4, kind := accRead }] else [])
  | 9 =>
    if r.valid then [{ va := g.sa.toNat, n := imageSize (saEfmt cfg) len (saOfmt cfg), align := imageAlign (saEfmt cfg), kind := accWrite }] else []
  | 10 =>
    if r.valid ∧ saEfmt cfg < 2 then
      [{ va := g.sa.toNat, n := imageSize (saEfmt cfg) len 0, align := imageAlign (saEfmt cfg), kind := accRead }] else []
  | _ => []

/-- sadd: the elements of t in FMT (R240). -/
def saddElems (g : Trig) : List Ex :=
  let f := saFmt g.cfg.toNat
  (unpackElems (fmtWidth f) g.tv.toNat (saddCount (saHandle g) (elemCount f))).map (valp f)

/-- The 8-bit integer class of a matrix configuration (R196). -/
def mcfgInt (cfg : Nat) : Bool := fld cfg 3 0 == 6 || fld cfg 3 0 == 7

/-- saddc: the words of one tile row (R240). -/
def State.saddcElems (s : State) (core x : Nat) (g : Trig) : List Ex :=
  let tile := Sp.get 0 (s.core core).tiles (g.ts.toNat % 8)
  let f : Fmt := if mcfgInt (s.ctx core x).mcfg.toNat then 10 else 0
  (unpackElems 32 (tile.toNat / 2 ^ (512 * fld g.ts.toNat 7 4)) 16).map (valp f)

/-- The tile row that saddc reads is marked (R410). -/
def State.saddcMarked (s : State) (core : Nat) (g : Trig) : Bool :=
  bitOf (Sp.get 0 (s.core core).tileMarks (g.ts.toNat % 8)).toNat (fld g.ts.toNat 7 4)

/-- A result of SA with its poison mark. -/
def State.saResult (s : State) (core x : Nat) (g : Trig) (lat : Nat) (v : Val) (fl : Flags) (mark : Option Dw) : State :=
  s.modCtx core x (fun c => c.push
    { due := c.count + lat, born := c.count, unit := rankUnit g.unit, dest := g.dest, val := some v, flags := fl, mark := mark })

/-- The address a poisoned segment reports, when `p` says that it is poisoned, and the state that has used a free value. -/
def State.segMark (s : State) (p : Bool) : Option Dw × State :=
  if p then (some (Config.segmentAddr s.freeCtr), s.fresh.2) else (none, s)

/-- srdn on the rows of one core (R242). -/
def State.srdnOwn (s : State) (core x : Nat) (g : Trig) : State :=
  let cfg := g.cfg.toNat
  let row := hRow (saHandle g)
  let e0 := hElem (saHandle g)
  let f := saOfmt cfg
  let s := s.flushSa core
  let r := s.saRow core row
  match s.saGroup core row with
  | none =>
    let m := s.segMark (s.groupPoison core row)
    (m.2.modSaRow core row SaRow.fail).saResult core x g 10 (.v 0) 0 m.1
  | some grp =>
    let v := s.viewOf core x
    let word (off e : Nat) : Ex := valFloat 0 (v.scratchNat core (off + 4 * e) 4)
    let gb (e : Nat) : Ex × Ex :=
      (if saGam cfg then word g.sa.toNat e else exOne, if saBet cfg then word g.sb.toNat e else .zero false)
    let cs := saNorm cfg r grp e0 (elemCount f) gb
    let fl : Flags := cs.foldl (fun a c => a ||| c.2) 0
    let marks := (v.core core).scratchPoison
    let at_ (on : Bool) (off : Nat) : Option Nat := if on then firstMarked marks ((List.range (4 * r.len)).map (off + ·)) else none
    let out : Val := .v (vecOf (packElems (fmtWidth f) (cs.map (·.1))))
    match at_ (saGam cfg) g.sa.toNat, at_ (saBet cfg) g.sb.toNat with
    | some a, _ => s.saResult core x g 10 out fl (some (BitVec.ofNat 64 a))
    | none, some a => s.saResult core x g 10 out fl (some (BitVec.ofNat 64 a))
    | none, none =>
      let m := s.segMark (s.groupPoison core row)
      m.2.saResult core x g 10 out fl m.1

/-- srdn, in both twins of a tidelocked group (R45, R319). -/
def State.srdn (s : State) (core x : Nat) (g : Trig) : State := s.bothTwins core (fun s => s.srdnOwn core x g)

/-- sstt (R238). -/
def State.sstt (s : State) (core x : Nat) (g : Trig) : State :=
  let row := hRow (saHandle g)
  let r := s.saRow core row
  let grp := s.saGroup core row
  let n := match grp with
    | some q => groupN q
    | none => (Config.ungroupedN s.freeCtr).toNat
  let s := if grp.isNone then s.fresh.2 else s
  let b (p : Bool) (k : Nat) : Nat := if p then 2 ^ k else 0
  let v := r.gbase * 2 ^ 32 + r.gidx * 2 ^ 28 + r.gcnt * 2 ^ 24 + b grp.isSome 23 + b r.err 22 + b r.nanf 21 + b r.satf 20 + n
  let m := s.segMark r.poison
  m.2.saResult core x g 2 (.s (BitVec.ofNat 64 v)) 0 m.1

/-- saddc, in both twins of a tidelocked group (R45, R240, R319). -/
def State.saddc (s : State) (core x dst : Nat) (g : Trig) : State :=
  s.bothTwins core (fun s => s.saAdd core dst (hRow (saHandle g)) (hElem (saHandle g)) (s.saddcMarked core g) (s.saddcElems core x g))

/-- A trigger of SA whose checks have passed. -/
def saRun (core x : Nat) (g : Trig) (r : State × Fx) : State × Fx :=
  let s := r.1
  let h := saHandle g
  let dst := (s.peerCore core (hCore h)).getD core
  let cfg := g.cfg.toNat
  (match g.port with
   | 4 => s.saAdd core dst (hRow h) (hElem h) false (saddElems g)
   | 5 => s.saddc core x dst g
   | 6 => s.srdn core x g
   | 7 => (s.flushSa core).shdr dst (hRow h) g.ts
   | 8 => (s.flushSa core).modSaRow dst (hRow h) SaRow.clear
   | 9 => s.sevt core x (hRow h) g.sa.toNat cfg
   | 10 => s.sldr core x (hRow h) g.sa.toNat cfg
   | _ => s.sstt core x g, r.2)

end Sys2Proof.Machine
end

