-- ==== Sys2Proof/Machine/Plesal.lean ====
section
/-! DEFINITION. Plesal weight tensors (R285 to R297): profile records, windows and values, segments, and the array's decoder. -/

namespace Sys2Proof.Machine

/-! ### Profile records (R285, R286) -/

def prL (r : List Dw) : Nat := fld (dwOf r 0) 4 0
def prP (r : List Dw) : Nat := fld (dwOf r 0) 11 8
def prField (r : List Dw) (i : Nat) : Nat := fld (dwOf r 0) (17 + 2 * i) (16 + 2 * i)
/-- Bits that step i shifts in. -/
def prStep (r : List Dw) (i : Nat) : Nat := prField r i + 1
def prKind (r : List Dw) : Nat := fld (dwOf r 0) 33 32
def prOfmt (r : List Dw) : Nat := fld (dwOf r 0) 39 36
def prSeglen (r : List Dw) : Nat := fld (dwOf r 0) 52 40
def prM (r : List Dw) : Nat := fld (dwOf r 1) 31 0
def prA (r : List Dw) : Nat := fld (dwOf r 1) 63 32
def prTbase (r : List Dw) : Nat := fld (dwOf r 2) 11 0
def prPtag (r : List Dw) : Nat := fld (dwOf r 2) 31 16
def prPslot (r : List Dw) : Nat := fld (dwOf r 2) 34 32
def prTable (r : List Dw) : Bool := prKind r == 0

/-- The record is malformed (R286). -/
def prMalformed (r : List Dw) : Bool :=
  let d0 := dwOf r 0
  let d2 := dwOf r 2
  let l := prL r
  let p := prP r
  decide (fld d0 63 53 ≠ 0) || decide (fld d0 35 34 ≠ 0) || decide (fld d0 15 12 ≠ 0) || decide (fld d0 7 5 ≠ 0)
    || decide (fld d2 63 35 ≠ 0) || decide (fld d2 15 12 ≠ 0) || decide (dwOf r 3 ≠ 0)
    || decide (l < 3) || decide (16 < l) || decide (p < 1) || decide (8 < p) || decide (prSeglen r < 1) || decide (4096 < prSeglen r)
    || (List.range 8).any (fun i => if i < p then decide (min 4 (l - 1) < prStep r i) else decide (prField r i ≠ 0))
    || decide (2 ≤ prKind r)
    || (prTable r && (decide (12 < l) || decide (4096 < prTbase r + 2 ^ l)))
    || (prKind r == 1 && decide (prTbase r ≠ 0))
    || !(prOfmt r == 1 || prOfmt r == 2 || prOfmt r == 4)

/-- Bytes of the record and its table. -/
def prBytes (r : List Dw) : Nat := if prTable r then 32 + 2 ^ (prL r + 1) else 32

/-! ### Bits, windows and values (R288 to R290) -/

/-- Bits of the first `n` steps. -/
def prSteps (r : List Dw) : Nat → Nat
  | 0 => 0
  | n + 1 => prSteps r n + prStep r n

/-- B(m), the bit offset of weight m (R288). -/
def prBit (r : List Dw) (m : Nat) : Nat := m / prP r * prSteps r (prP r) + prSteps r (m % prP r)

/-- WORDS of a segment of LEN weights (R291). -/
def prWords (r : List Dw) (len : Nat) : Nat := (prBit r len + 31) / 32

/-- n words of a strip at an offset of a core's scratchpad, as an operation reads them: one that it has read before in this repetition as it
was then (R305); the words that it has read by now, by offset. -/
def State.stripWords (s : State) (core off : Nat) : Nat → Sp Nat → Nat × Sp Nat
  | 0, ws => (0, ws)
  | n + 1, ws =>
    let w := (Sp.find? ws off).getD (s.scratchNat core off 4)
    let r := State.stripWords s core (off + 4) n (Sp.put ws off w)
    (w + 2 ^ 32 * r.1, r.2)

/-- Bits i to i + n − 1 of E (R289), of a segment whose body is at `body` of a core's scratchpad, and the words read. -/
def State.eBits (s : State) (core body anchor l i n : Nat) (ws : Sp Nat) : Nat × Sp Nat :=
  if l - 1 ≤ i then
    let b := i - (l - 1)
    let r := s.stripWords core (body + b / 32 * 4) ((b % 32 + n + 31) / 32) ws
    (r.1 / 2 ^ (b % 32) % 2 ^ n, r.2)
  else
    let r := s.stripWords core body (if l - 1 < i + n then 1 else 0) ws
    ((anchor % 2 ^ (l - 1) + 2 ^ (l - 1) * r.1) / 2 ^ i % 2 ^ n, r.2)

/-- The window after k bits x have been shifted into state s, and the state that follows (R289). -/
def plWindow (l s k x : Nat) : Nat := s / 2 ^ (k - 1) + x * 2 ^ (l - k)

/-- DV(W) (R290), with the table's codes. -/
def plValue (r : List Dw) (table : Nat → Nat) (w : Nat) : Ex :=
  if prTable r then valFloat 1 (table w)
  else
    let x := (w * prM r + prA r) % 2 ^ 32
    let sum : Int := toSigned 8 x + toSigned 8 (x / 256) + toSigned 8 (x / 65536) + toSigned 8 (x / 16777216)
    exFixed sum 7

/-! ### Segments (R291, R292) -/

/-- The fields of a segment header, from its 128 bits. -/
def sgAnchor (h : Nat) : Nat := fld h 15 0
def sgScale (h : Nat) : Nat := fld h 31 16
def sgLen (h : Nat) : Nat := fld h 44 32
def sgPslot (h : Nat) : Nat := fld h 50 48
def sgLast (h : Nat) : Bool := bitOf h 56
def sgCrc (h : Nat) : Nat := fld h 79 64
def sgWords (h : Nat) : Nat := fld h 95 80
def sgPtag (h : Nat) : Nat := fld h 111 96
def sgReserved (h : Nat) : Bool :=
  decide (fld h 127 112 ≠ 0) || decide (fld h 63 58 ≠ 0) || decide (fld h 55 51 ≠ 0) || decide (fld h 47 45 ≠ 0)

/-- Bytes a segment occupies (R292). -/
def sgBytes (words : Nat) : Nat := 16 + 16 * ((words + 3) / 4)

/-- Reason 1 for a segment of header h at an offset of a scratchpad of `size` bytes that holds the header (R295). -/
def sgBeyond (seg size h : Nat) : Bool :=
  decide (size < seg + 16 + 4 * sgWords h) || (!(sgLast h) && decide (size ≤ seg + sgBytes (sgWords h)))

/-- Reason 1 for a segment at an offset of a scratchpad of `size` bytes, beside its descriptor entry (R295). -/
def State.sgOutside (s : State) (core seg size : Nat) : Bool :=
  if size < seg + 16 then true else sgBeyond seg size (s.scratchNat core seg 16)

/-- The parts of reason 2 that need the profile. -/
def sgShape (r : List Dw) (h : Nat) : Bool :=
  decide (sgAnchor h / 2 ^ (prL r - 1) ≠ 0) || decide (sgWords h ≠ prWords r (sgLen h))

/-! ### The array's decoder (R294 to R297) -/

/-- The classes of operand formats (R196): 0 16-bit, 1 8-bit float, 2 4-bit, 3 8-bit integer, 4 none. -/
def mxClass (f : Nat) : Nat := if f = 1 ∨ f = 2 then 0 else if f = 3 ∨ f = 4 then 1 else if f = 5 then 2 else if f = 6 ∨ f = 7 then 3 else 4

/-- A column of an mmap as its decoder runs: its state, the profile copies and the words of the operation, the reason it met, the poisoned
offset it read, and the values it has decoded, latest first. -/
structure ColOut where
  col : ColState
  profs : List (Nat × Option (List Dw))
  words : Sp Nat := []
  event : Option Nat := none
  poison : Option Dw := none
  vals : List Ex := []
deriving DecidableEq, Repr

/-- The copy of a slot's record that the operation decodes under (R205): taken now if it has none. -/
def State.slotCopy (s : State) (pair slot : Nat) (profs : List (Nat × Option (List Dw))) :
    Option (List Dw) × List (Nat × Option (List Dw)) :=
  match profs.find? (fun e => e.1 == slot) with
  | some e => (e.2, profs)
  | none =>
    match (Sp.find? (s.pair pair).slots slot).filter PSlot.valid with
    | some p => (some p.record, (slot, some p.record) :: profs)
    | none => (none, profs)

/-- A marked granule of a scratchpad within n bytes. -/
def State.scratchMarked (s : State) (core off n : Nat) : Option Dw :=
  (firstMarked (s.core core).scratchPoison ((List.range n).map (off + ·))).map (BitVec.ofNat 64)

/-- The column's decoder reaches a segment: the first condition of R295 that holds, if any. `entry` is the descriptor entry for
the column's first segment. -/
def State.colReach (s : State) (core pair afmt : Nat) (entry : Option Nat) (o : ColOut) : ColOut :=
  let seg := o.col.seg
  let size := (s.core core).scratchSize
  let dead (k : Nat) (o : ColOut) : ColOut := { o with event := some k, col := { o.col with dead := true } }
  let badEntry : Bool := match entry with
    | some e => decide (fld e 63 28 ≠ 0) || decide (seg % 16 ≠ 0)
    | none => false
  if badEntry || decide (size < seg + 16) then dead 1 o
  else
    let r := s.stripWords core seg 4 o.words
    let h := r.1
    let o := { o with
      words := r.2, poison := if o.poison.isSome then o.poison else s.scratchMarked core seg 16, col := { o.col with hdr := h } }
    if sgBeyond seg size h then dead 1 o
    else if sgReserved h || decide (sgLen h = 0) then dead 2 o
    else
      let p := s.slotCopy pair (sgPslot h) o.profs
      let o := { o with profs := p.2 }
      match p.1 with
      | none => dead 3 o
      | some r =>
        if prPtag r ≠ sgPtag h then dead 4 o
        else if sgShape r h then dead 2 o
        else if prSeglen r < sgLen h then dead 5 o
        else if mxClass (prOfmt r) ≠ mxClass afmt then dead 6 o
        else if entry.isSome && decide (sgLen h ≤ o.col.w) then dead 7 o
        else { o with col := { o.col with slot := sgPslot h } }

/-- The column's next weight enters its values: its decoded value, or +0 when the column is dead (R294, R296). -/
def State.colStep (s : State) (core pair afmt entry : Nat) (o : ColOut) : ColOut :=
  let zero (o : ColOut) : ColOut := { o with vals := .zero false :: o.vals }
  if o.col.dead then zero o
  else
    let o :=
      if !o.col.begun then
        s.colReach core pair afmt (some entry)
          { o with col := { o.col with begun := true, seg := fld entry 19 0, w := 24 * fld entry 27 20 } }
      else
        let h := o.col.hdr
        if o.col.w < sgLen h then o
        else if sgLast h then { o with event := some 8, col := { o.col with dead := true } }
        else s.colReach core pair afmt none { o with col := { o.col with seg := o.col.seg + sgBytes (sgWords h), w := 0 } }
    if o.col.dead then zero o
    else
      let h := o.col.hdr
      match (o.profs.find? (fun e => e.1 == o.col.slot)).bind (·.2) with
      | none => zero o
      | some r =>
        let c := prBit r (o.col.w + 1)
        let body := o.col.seg + 16
        let w := s.eBits core body (sgAnchor h) (prL r) (c - 1) (prL r) o.words
        let dv := plValue r (fun i => (Sp.get 0 (s.pair pair).dtab (prTbase r + i)).toNat) w.1
        let mark := if o.poison.isSome then o.poison else s.scratchMarked core (body + (c - prL r) / 32 * 4) (4 * ((c - 1) / 32 - (c - prL r) / 32 + 1))
        { o with vals := valp (prOfmt r) (plDec dv (sgScale h) (prOfmt r)) :: o.vals, poison := mark, words := w.2
                 col := { o.col with w := o.col.w + 1 } }

/-- n weights of a column. -/
def State.colRun (s : State) (core pair afmt entry : Nat) : Nat → ColOut → ColOut
  | 0, o => o
  | n + 1, o => State.colRun s core pair afmt entry n (s.colStep core pair afmt entry o)

/-- PDERR records an event (R297): REASON, COL and TILE while ERR is 0; COUNT once for each operation or repetition. -/
def pderrEvent (v : Dw) (first : Bool) (reason col tile : Nat) : Dw :=
  let count := if first then min 0xFFFFFFFF (fld v.toNat 63 32 + 1) else fld v.toNat 63 32
  let low := if bitOf v.toNat 0 then v.toNat % 2 ^ 32 else reason * 2 ^ 16 + col * 2 ^ 12 + tile * 2 ^ 8 + 1
  BitVec.ofNat 64 (count * 2 ^ 32 + low)

end Sys2Proof.Machine
end

