-- ==== Sys2Proof/Machine/Matrix.lean ====
section
/-! DEFINITION. Slot 6 and the array (R89 to R92, R193 to R219): configuration, checks at dispatch, issue from the matrix queue,
beats, ranks, tile transfers, profile definition and sequence tags. -/

namespace Sys2Proof.Machine

/-! ### Configuration (R195, R196) -/

def mxA (cfg : Nat) : Nat := fld cfg 3 0
def mxB (cfg : Nat) : Nat := fld cfg 7 4
def mxSca (cfg : Nat) : Bool := bitOf cfg 8
def mxScb (cfg : Nat) : Bool := bitOf cfg 9
def mxRemapA (cfg : Nat) : Bool := bitOf cfg 10
def mxRemapB (cfg : Nat) : Bool := bitOf cfg 11
def mxRcol (cfg : Nat) : Nat := fld cfg 15 12
def mxXvalA (cfg : Nat) : Nat := fld cfg 31 16
def mxXvalB (cfg : Nat) : Nat := fld cfg 47 32

/-- Kb, the elements of a beat, and their width, by class. -/
def mxKb (c : Nat) : Nat := if c = 0 then 24 else if c = 2 then 96 else 48
def mxWidth (c : Nat) : Nat := 384 / mxKb c

/-- The class carries block scales. -/
def mxScaled (c : Nat) : Bool := c == 1 || c == 2

/-- A matrix configuration value that mcfg accepts (R195 to R197). -/
def mcfgOk (v : Nat) : Bool :=
  let c := mxClass (mxA v)
  decide (fld v 63 48 = 0) && c != 4 && mxClass (mxB v) == c && (!(mxSca v || mxScb v) || mxScaled c)

/-! ### Checks at dispatch (R193, R194, R199, R215, R216) -/

def mtOp (w : Nat) : Nat := fld w 23 19
def mtTile (w : Nat) : Nat := fld w 18 16
def mtA (w : Nat) : Nat := fld w 15 12
def mtB (w : Nat) : Nat := fld w 11 8

/-- Declared beats of a slot-6 word, without a repeat prefix (R112, R113). -/
def mtBeats (w : Nat) : Nat := if (2 ≤ mtOp w ∧ mtOp w ≤ 7) ∨ mtOp w = 9 then fld w 7 0 + 1 else 1

/-- The operation multiplies, and so takes a repeat prefix (R215). -/
def mtMul (op : Nat) : Bool := 2 ≤ op && op ≤ 5

/-- The address registers that the dispatch of a slot-6 word reads. -/
def mtRegs (w : Nat) : List Nat :=
  let op := mtOp w
  if mtMul op then [mtA w, mtB w] else if op = 1 ∨ op = 6 ∨ op = 7 ∨ op = 9 then [mtA w] else []

/-- Bytes of scale data after a panel of n beats. -/
def mxScaleBytes (n c : Nat) : Nat := 16 * (n * mxKb c / 32)

/-- A use of an operand address: the register value, how far each repetition moves it, its alignment and extent, and whether
RMT = 1 is accepted. -/
structure MUse where
  reg : Dw
  stride : Dw := 0
  align : Nat
  extent : Nat
  remote : Bool := false
deriving DecidableEq, Repr

/-- The uses of a slot-6 word (R194). -/
def mtUses (w : Nat) (cfg : Nat) (va vb : Dw) (rp : Option Rept) : List MUse :=
  let n := mtBeats w
  let sa := (rp.map (·.sA)).getD 0
  let sb := (rp.map (·.sB)).getD 0
  let panel (sc : Bool) (f : Nat) : Nat := n * 768 + (if sc then mxScaleBytes n (mxClass f) else 0)
  let op := mtOp w
  if op = 5 then
    [{ reg := va, stride := sa, align := 16, extent := panel (mxSca cfg) (mxA cfg), remote := true },
     { reg := vb, stride := sb, align := 8, extent := 128 }]
  else if mtMul op then
    [{ reg := va, stride := sa, align := 16, extent := panel (mxSca cfg) (mxA cfg), remote := true },
     { reg := vb, stride := sb, align := 16, extent := panel (mxScb cfg) (mxB cfg), remote := true }]
  else if op = 6 ∨ op = 7 then [{ reg := va, align := 64, extent := 1024 }]
  else if op = 9 then [{ reg := va, align := 16, extent := n * 48 }]
  else []

/-- The address of repetition k. -/
def MUse.addr (u : MUse) (k : Nat) : Nat := (u.reg + BitVec.ofNat 64 k * u.stride).toNat

def maRmt (a : Nat) : Bool := bitOf a 28
def maCore (a : Nat) : Nat := fld a 27 24
def maOff (a : Nat) : Nat := fld a 19 0

/-- Row 5 of R216. -/
def MUse.misaligned (u : MUse) (k : Nat) : Bool :=
  let a := u.addr k
  decide (fld a 63 29 ≠ 0) || decide (fld a 23 20 ≠ 0) || (!(maRmt a) && decide (maCore a ≠ 0)) || decide (maOff a % u.align ≠ 0)

/-- The physical core whose scratchpad an operand address names. -/
def State.mtTarget (s : State) (core a : Nat) : Option Nat := if maRmt a then s.peerCore core (maCore a) else some core

/-- The bytes of other cores' scratchpads that a use reads in n repetitions (R193): the core, the offset and the number. -/
def State.usePanels (s : State) (core n : Nat) (u : MUse) : List (Nat × Nat × Nat) :=
  (List.range n).filterMap (fun k => if maRmt (u.addr k) then (s.mtTarget core (u.addr k)).map (fun c => (c, maOff (u.addr k), u.extent)) else none)

/-- Row 6 of R216. -/
def State.mtOutside (s : State) (core : Nat) (u : MUse) (k : Nat) : Bool :=
  let a := u.addr k
  (maRmt a && !u.remote) ||
    (match s.mtTarget core a with
     | none => true
     | some c => decide ((s.core c).scratchSize < maOff a + u.extent))

/-- Row 4 of R216. -/
def mtSchedule (w cfg : Nat) (va : Dw) (rp : Option Rept) : Bool :=
  let op := mtOp w
  let scales := if op = 5 then mxSca cfg else mxSca cfg || mxScb cfg
  (rp.isSome && op != 0 && !(mtMul op)) || (op == 1 && !(mcfgOk va.toNat)) ||
    (mtMul op && scales && mxClass (mxA cfg) == 1 && mtBeats w % 2 == 1)

/-- Repetitions of an operation. -/
def reptCount (rp : Option Rept) : Nat := (rp.map (·.r)).getD 1

/-- The trap of a slot-6 dispatch by its register values (R216 rows 4 to 6). When both registers break one row, TADDR receives the first
one's value. (DEDUCED, log entry 56.) -/
def State.matFault (s : State) (core x w : Nat) (rp : Option Rept) : Option Trap :=
  let c := s.ctx core x
  let cfg := c.mcfg.toNat
  let va := c.bank.areg (mtA w)
  let vb := c.bank.areg (mtB w)
  let uses := mtUses w cfg va vb rp
  let ks := List.range (reptCount rp)
  if mtSchedule w cfg va rp then some { cause := cSCHEDULE_FAULT, pos := 6 }
  else match uses.find? (fun u => ks.any u.misaligned) with
  | some u => some { cause := cALIGNMENT, pos := 6, addr := some u.reg }
  | none =>
    match uses.find? (fun u => ks.any (s.mtOutside core u)) with
    | some u => some { cause := cPERMISSION, pos := 6, addr := some u.reg }
    | none => none

/-- Slot 6 is dispatched (R31 step 6, R197, R210): the entry with what it reads at dispatch. A nop enters only a queue that is
not empty, or any queue when its bundle waits for it (R40): `al`. -/
def State.matDispatch (s : State) (core x w : Nat) (rp : Option Rept) (al : Bool := false) : State :=
  let k := s.core core
  let c := k.ctx x
  let op := mtOp w
  if op = 0 then
    (if k.mq.isEmpty && !al then s else s.setCore core { k with mq := k.mq ++ [{ ctx := x, op := 0, cyc := k.now }] })
  else
    let va := c.bank.areg (mtA w)
    let tag := fld w 15 8
    let mark := Sp.get 0 c.tagD tag + 1
    let panels := (mtUses w c.mcfg.toNat va (c.bank.areg (mtB w)) rp).flatMap (s.usePanels core (reptCount rp))
    let e : MEnt := { ctx := x, op := op, cyc := k.now, tile := mtTile w, ra := va, rb := c.bank.areg (mtB w), beats := mtBeats w
                      rept := rp, cfg := c.mcfg, tag := tag, mark := if op = 10 then mark else 0, panels := panels }
    let c := { c with
      mcfg := if op = 1 then va else c.mcfg
      tagD := if op = 10 then Sp.put c.tagD tag mark else c.tagD
      recM := some (c.count, mtBeats w * reptCount rp)
      rept := none }
    s.setCore core { (k.setCtx x c) with mq := k.mq ++ [e] }

/-! ### Tiles -/

/-- The 256 words of a tile, element (i, j) at index 16i + j. -/
def Core.tileWords (k : Core) (t : Nat) : List Nat := unpackElems 32 (Sp.get 0 k.tiles t).toNat 256
def Core.setTile (k : Core) (t : Nat) (ws : List Nat) : Core := { k with tiles := Sp.set 0 k.tiles t (BitVec.ofNat 8192 (packElems 32 ws)) }
/-- Row i of a tile. -/
def Core.tileRow (k : Core) (t i : Nat) : Nat := fld (Sp.get 0 k.tiles t).toNat (512 * i + 511) (512 * i)
/-- Every row of a tile is marked (R410), or none. -/
def Core.markTile (k : Core) (t : Nat) (on : Bool) : Core := { k with tileMarks := Sp.set 0 k.tileMarks t (if on then 0xFFFF else 0) }
def Core.tileMarked (k : Core) (t : Nat) : Bool := Sp.get 0 k.tileMarks t != 0

/-! ### One beat of products (R89 to R91, R198 to R200) -/

/-- The products' common scale: every finite product of a beat is a multiple of 2^−320. -/
def fixBits : Nat := 320

/-- A finite value as a multiple of 2^−320. -/
def exFix : Ex → Int
  | .fin n p q => let v : Nat := p * 2 ^ fixBits / q; if n then -(v : Int) else (v : Int)
  | _ => 0

/-- The exact sum of a beat's products (R90). -/
def beatSum (ps : List Ex) : Ex :=
  let infs := ps.filter Ex.isInf
  if ps.any Ex.isNaN then .nan false
  else match infs with
  | i :: _ => if infs.any (fun x => x.neg != i.neg) then .nan false else .inf i.neg
  | [] =>
    let n := (ps.map exFix).foldl (· + ·) 0
    if n = 0 then .zero (ps.all (fun p => p.isZero && p.neg)) else Ex.mk (decide (n < 0)) n.natAbs (2 ^ fixBits)

/-- The products of a row and a column of a beat. -/
def beatProducts (xs ys : List Ex) : List Ex := (xs.zip ys).map (fun e => (exMul e.1 e.2).1)

/-- A tile element after one beat in FP32 (R89, R90). -/
def beatFloat (acc : Nat) (xs ys : List Ex) : Nat := rne32 (exAdd false (valFloat 0 acc) (beatSum (beatProducts xs ys))).1

/-- A tile element after one beat in INT32 (R91). -/
def beatInt (acc : Nat) (xs ys : List Ex) : Nat :=
  let dot : Int := ((xs.zip ys).map (fun e => e.1.frac.1 * e.2.frac.1)).foldl (· + ·) 0
  wrapInt 32 ((acc : Int) + dot)

/-- E8VAL (R95). -/
def e8val (e : Nat) : Ex := val 12 false 0 e

/-- One 48-byte row of a panel, as values, each multiplied by its block scale: row i of beat b of a panel of n beats at `off`
in the scratchpad of core `k` (R198, R199). -/
def State.panelRow (s : State) (k off n b i : Nat) (f : Nat) (remap : Bool) (xv : Nat) (scaled : Bool) : List Ex :=
  let c := mxClass f
  let kb := mxKb c
  let es := (unpackElems (mxWidth c) (s.scratchNat k (off + (16 * b + i) * 48) 48) kb).map (val f remap xv)
  if scaled then
    let sbase := off + n * 768 + i * (n * kb / 32)
    (es.zip (List.range kb)).map (fun e =>
      (exMul e.1 (e8val (s.scratchNat k (sbase + (b * kb + e.2) / 32) 1))).1)
  else es

/-- The first marked offset that a beat's rows and scale bytes of one panel touch (R410). -/
def State.panelMark (s : State) (k off n b : Nat) (f : Nat) (scaled : Bool) : Option Dw :=
  if (s.core k).scratchPoison.isEmpty then none
  else
    let kb := mxKb (mxClass f)
    let rows := s.scratchMarked k (off + 16 * b * 48) 768
    if rows.isSome then rows
    else if scaled then
      (List.range 16).findSome? (fun i =>
        s.scratchMarked k (off + n * 768 + i * (n * kb / 32) + b * kb / 32) (((b + 1) * kb - 1) / 32 - b * kb / 32 + 1))
    else none

/-- The tile after one beat. -/
def beatTile (int : Bool) (acc : List Nat) (rows cols : List (List Ex)) : List Nat :=
  let f := if int then beatInt else beatFloat
  (acc.zip (List.range 256)).map (fun e => f e.1 (rows.getD (e.2 / 16) []) (cols.getD (e.2 % 16) []))

/-! ### Ranks (R201) -/

/-- The value at j' is ahead of the value at j. -/
def rankAhead (int : Bool) (v' v : Nat) (j' j : Nat) : Bool :=
  if int then
    let a := toSigned 32 v'; let b := toSigned 32 v
    decide (b < a) || (decide (a = b) && decide (j' < j))
  else
    let a := valFloat 0 v'; let b := valFloat 0 v
    if !a.isNaN && !b.isNaN then b.lt a || (a.eq b && decide (j' < j))
    else if !a.isNaN then true
    else if !b.isNaN then false
    else decide (j' < j)

/-- The ranks of one row of 16 scores. -/
def rankRow (int : Bool) (rcol : Nat) (row : List Nat) : List Nat :=
  (List.range 16).map (fun j =>
    if rcol < j then 0xFFFFFFFF
    else ((List.range (rcol + 1)).filter (fun j' => j' != j && rankAhead int (row.getD j' 0) (row.getD j 0) j' j)).length)

/-- Tile U of an mmar (R201). -/
def rankTile (int : Bool) (rcol : Nat) (ws : List Nat) : List Nat :=
  (List.range 16).flatMap (fun i => rankRow int rcol ((ws.drop (16 * i)).take 16))

/-! ### Issue (R41, R211) -/

/-- x rounded up to the core's own windows: even cycles for a lower twin, odd ones for an upper twin (R43). -/
def Core.windowUp (k : Core) (x : Nat) : Nat := x + (x + k.logical) % 2

/-- The window at which the head of the matrix queue issues, when the array is free. -/
def Core.matWindow (k : Core) : Option Nat :=
  match k.mrun, k.mq.find? (fun e => e.op != 0) with
  | none, some e => some (k.windowUp (max k.mfree e.cyc))
  | _, _ => none

/-- The cycle of the next array work: the window of the beat that runs, or of the next issue. -/
def Core.arrayNext (k : Core) : Option Nat :=
  match k.mrun with
  | some _ => some k.mwin
  | none => k.matWindow

/-- Cycles pass without bundles: nothing runs, or the running context's bundle is blocked. -/
def Core.coasts (k : Core) : Bool := (k.run.isNone || k.stalled) && k.frozen.isNone

/-- Array work of a window that lies before this bundle's cycle, and whose effects the bundle must see, is still to be done
(R211). -/
def Core.arrayBehind (k : Core) : Bool :=
  match k.arrayNext with
  | some w => decide (w + 2 ≤ k.now)
  | none => false

/-- A window may be used now: its cycle has come, or comes while the core coasts; the windows of a frozen core go unused (R35, R43).
(DEDUCED, log entry 22.) -/
def Core.windowOpen (k : Core) (w : Nat) : Bool := k.frozen.isNone && (decide (w ≤ k.now) || k.coasts)
def Core.reach (k : Core) (w : Nat) : Core := { k with now := max k.now w }

/-- Contexts whose bundle waits for the matrix queue go on once it has issued enough (R40). -/
def Core.wakeM (k : Core) : Core :=
  { k with ctxs := k.ctxs.map (fun c => if c.2.needM ≤ k.mIss then (c.1, { c.2 with needM := 0 }) else c) }

/-- Nops at the head of a matrix queue leave it. -/
def Core.popNops (k : Core) : Core :=
  let n := (k.mq.takeWhile (fun e => e.op == 0)).length
  if n = 0 then k else { k with mq := k.mq.drop n, mIss := k.mIss + n }.wakeM

/-- The head of the matrix queue leaves it. -/
def Core.popMat (k : Core) : Core := { k with mq := k.mq.drop 1, mIss := k.mIss + 1 }.popNops.wakeM

/-- Repetitions of an entry. -/
def MEnt.reps (e : MEnt) : Nat := reptCount e.rept

/-- The operand addresses of repetition k. -/
def MEnt.addrA (e : MEnt) (k : Nat) : Nat := (e.ra + BitVec.ofNat 64 k * (e.rept.map (·.sA)).getD 0).toNat
def MEnt.addrB (e : MEnt) (k : Nat) : Nat := (e.rb + BitVec.ofNat 64 k * (e.rept.map (·.sB)).getD 0).toNat

/-- Repetition k of the operation reads another core's scratchpad (R193, R214). -/
def MEnt.remote (e : MEnt) (k : Nat) : Bool := mtMul e.op && (maRmt (e.addrA k) || (e.op != 5 && maRmt (e.addrB k)))

/-- The head of the matrix queue leaves it and takes the array (R41, R211). (DEDUCED, log entry 23.) -/
def Core.issueMat (k : Core) : Core :=
  if k.frozen.isSome then k
  else
    let k := k.popNops
    match k.matWindow, k.mq with
    | some w, e :: _ =>
      if k.windowOpen w then { k.popMat.reach w with mwin := w, mrun := some { ent := e, waits := e.remote 0 } }
      else k
    | _, _ => k

/-- The strip descriptor of a repetition is read as the operation issues, or as the repetition's first window comes (R202, R215).
(DEDUCED, log entry 58.) -/
def State.readDesc (s : State) (core : Nat) (r : MRun) : MRun :=
  if r.ent.op = 5 ∧ r.descs ≤ r.rep then
    let v := s.viewOf core r.ent.ctx
    let off := maOff (r.ent.addrB r.rep)
    { r with desc := v.scratchDws core off 16, cols := List.replicate 16 {}, words := [], bad := false, descs := r.rep + 1
             poison := if r.poison.isSome then r.poison else v.scratchMarked core off 128 }
  else r

/-- The same for the operation in the array, of both twins of a tidelocked group (R45). -/
def State.readDescs (s : State) (core : Nat) : State :=
  s.bothTwins core (fun s => s.modCore core (fun k => { k with mrun := k.mrun.map (s.readDesc core) }))

/-- The head of the matrix queue issues (R41, R202, R211). -/
def State.matIssue (s : State) (core : Nat) : State :=
  if (s.core core).mrun.isSome then s else (s.modCore core Core.issueMat).readDescs core

/-! ### Beats -/

/-- The A panel of a beat: its 16 rows, and a poisoned offset it reads. -/
def State.beatRows (s : State) (core : Nat) (r : MRun) : List (List Ex) × Option Dw :=
  let cfg := r.ent.cfg.toNat
  let a := r.ent.addrA r.rep
  let k := (s.mtTarget core a).getD core
  let n := r.ent.beats
  ((List.range 16).map (fun i => s.panelRow k (maOff a) n r.beat i (mxA cfg) (mxRemapA cfg) (mxXvalA cfg) (mxSca cfg)),
   s.panelMark k (maOff a) n r.beat (mxA cfg) (mxSca cfg))

/-- The B panel of a beat of mma, mmaz or mmar. -/
def State.beatCols (s : State) (core : Nat) (r : MRun) : List (List Ex) × Option Dw :=
  let cfg := r.ent.cfg.toNat
  let b := r.ent.addrB r.rep
  let k := (s.mtTarget core b).getD core
  let n := r.ent.beats
  ((List.range 16).map (fun j => s.panelRow k (maOff b) n r.beat j (mxB cfg) (mxRemapB cfg) (mxXvalB cfg) (mxScb cfg)),
   s.panelMark k (maOff b) n r.beat (mxB cfg) (mxScb cfg))

/-- The 16 columns of one mmap beat, and what they leave: columns, profile copies, poison and events (R203). -/
def State.mmapCols (s : State) (core : Nat) (r : MRun) : List (List Ex) × MRun × List (Nat × Nat) :=
  let cfg := r.ent.cfg.toNat
  let kb := mxKb (mxClass (mxA cfg))
  let pair := s.pairOf core
  (List.range 16).foldl (fun a j =>
    let o := s.colRun core pair (mxA cfg) (dwOf a.2.1.desc j) kb { col := a.2.1.cols.getD j {}, profs := a.2.1.profs, words := a.2.1.words }
    let run := { a.2.1 with
      cols := a.2.1.cols.set j o.col, profs := o.profs, words := o.words
      poison := if a.2.1.poison.isSome then a.2.1.poison else o.poison }
    (a.1 ++ [o.vals.reverse], run, match o.event with
      | some e => a.2.2 ++ [(j, e)]
      | none => a.2.2)) ([], r, [])

/-- PDERR of the dispatching context takes the events of a beat (R296, R297). (DEDUCED, log entry 57.) -/
def State.pderrs (s : State) (core : Nat) (r : MRun) (evs : List (Nat × Nat)) : State × MRun :=
  evs.foldl (fun a e =>
    (a.1.modCtx core r.ent.ctx (fun c => { c with sys := { c.sys with pderr := pderrEvent c.sys.pderr (!a.2.bad) e.2 e.1 r.ent.tile } }),
     { a.2 with bad := true })) (s, r)

/-- The tile of an operation is marked when a beat has read poison; an mmar also marks its partner (R410). -/
def Core.poisonTiles (k : Core) (r : MRun) : Core :=
  if r.poison.isSome then
    let k := k.markTile r.ent.tile true
    if r.ent.op = 4 then k.markTile (r.ent.tile ^^^ 1) true else k
  else k

/-- The ranks of an mmar after the last beat of a repetition (R201). -/
def Core.rankAct (k : Core) (r : MRun) : Core :=
  if r.ent.op = 4 ∧ r.beat + 1 = r.ent.beats then
    let cfg := r.ent.cfg.toNat
    let u := r.ent.tile ^^^ 1
    let k := k.setTile u (rankTile (mxClass (mxA cfg) == 3) (mxRcol cfg) (k.tileWords r.ent.tile))
    if k.tileMarked r.ent.tile then k.markTile u true else k
  else k

/-- The dispatching context's stores on their way to a remote panel arrive before the beat reads it (R212, R225). -/
def State.beatOrder (s : State) (core : Nat) (r : MRun) : State :=
  let flush (s : State) (a n : Nat) : State :=
    if maRmt a then s.flushBytes core r.ent.ctx ((s.mtTarget core a).getD core) (maOff a) n else s
  let cfg := r.ent.cfg.toNat
  let n := r.ent.beats
  let panel (sc : Bool) (f : Nat) : Nat := n * 768 + (if sc then mxScaleBytes n (mxClass f) else 0)
  let s := flush s (r.ent.addrA r.rep) (panel (mxSca cfg) (mxA cfg))
  if r.ent.op = 5 then s else flush s (r.ent.addrB r.rep) (panel (mxScb cfg) (mxB cfg))

/-- A beat of mma, mmaz, mmar or mmap (R200 to R203). -/
def State.beatMul (s : State) (core : Nat) (r : MRun) : State × MRun :=
  let t := r.ent.tile
  let s := if r.ent.op = 3 ∧ r.rep = 0 ∧ r.beat = 0 then s.modCore core (fun k => (k.setTile t []).markTile t false) else s
  let s := s.beatOrder core r
  let v := (s.viewOf core r.ent.ctx).underKept r.ent
  let rows := v.beatRows core r
  let c : List (List Ex) × MRun × List (Nat × Nat) :=
    if r.ent.op = 5 then v.mmapCols core r
    else let b := v.beatCols core r; (b.1, { r with poison := if r.poison.isSome then r.poison else b.2 }, [])
  let r := { c.2.1 with poison := if c.2.1.poison.isSome then c.2.1.poison else rows.2 }
  let int := mxClass (mxA r.ent.cfg.toNat) == 3
  let s := s.modCore core (fun k =>
    ((k.setTile t (beatTile int (k.tileWords t) rows.1 c.1)).poisonTiles r).rankAct r)
  s.pderrs core r c.2.2

/-- What an operation has read ahead of its beat, under bytes that an earlier operation of its context writes (R212, R225). -/
def MEnt.rekeep (e : MEnt) (core : Nat) (cs : Cells) (mark : Bool) : MEnt :=
  { e with kept := e.kept.map (fun b =>
      match if b.core = core then cs.find? (fun c => c.1 == b.off) else none with
      | some c => { b with byte := c.2, mark := mark }
      | none => b) }

/-- A beat of accrd: one row to the scratchpad, marked if the tile's row is (R207). The context's held stores to those bytes come before it
(R212). -/
def State.beatAccrd (s : State) (core : Nat) (r : MRun) : State :=
  if 16 ≤ r.beat then s
  else
    let k := s.core core
    let off := maOff r.ent.ra.toNat + 64 * r.beat
    let cs := cellsAt off (bytesOf 64 (k.tileRow r.ent.tile r.beat))
    let mark := bitOf (Sp.get 0 k.tileMarks r.ent.tile).toNat r.beat
    let s := (s.yieldHeld core r.ent.ctx 1 core cs).scratchWrite core cs
    let s := s.modCore core (fun k => k.modOps r.ent.ctx (fun e => e.rekeep core cs mark))
    if mark then s.scratchMark core off 64 else s

/-- A beat of accwr: one row from the scratchpad (R208). The tile is clean again when all of it has been overwritten. -/
def State.beatAccwr (s : State) (core : Nat) (r : MRun) : State × MRun :=
  if 16 ≤ r.beat then (s, r)
  else
    let off := maOff r.ent.ra.toNat + 64 * r.beat
    let t := r.ent.tile
    let v := s.viewOf core r.ent.ctx
    let r := { r with poison := if r.poison.isSome then r.poison else v.scratchMarked core off 64 }
    (s.modCore core (fun k =>
      let ws := k.tileWords t
      let k := k.setTile t (ws.take (16 * r.beat) ++ unpackElems 32 (v.scratchNat core off 64) 16 ++ ws.drop (16 * r.beat + 16))
      if r.poison.isSome then k.markTile t true else if r.beat = 15 then k.markTile t false else k), r)

/-- pldef after its last beat (R204): the slot and the table, or an invalid slot, whose tags are the malformed pldef's core and OWNER (DESIGN
CHOICE, log entry 105). -/
def State.pldefDone (s : State) (core : Nat) (r : MRun) : State :=
  let rec_ := r.desc.take 4
  let pair := s.pairOf core
  if prMalformed rec_ || decide (r.ent.beats * 48 < prBytes rec_) then
    s.modPair pair (fun p => { p with
      slots := Sp.put p.slots r.ent.tile { record := rec_, valid := false, writer := core, owner := s.ownerOf core } })
  else
    let entry (i : Nat) : Nat := fld (dwOf r.desc (4 + i / 4)) (16 * (i % 4) + 15) (16 * (i % 4))
    let n := if prTable rec_ then 2 ^ prL rec_ else 0
    let slot : PSlot := { record := rec_, writer := core, owner := s.ownerOf core }
    s.modPair pair (fun p => { p with
      slots := Sp.put p.slots r.ent.tile slot
      dtab := (List.range n).foldl (fun m i => Sp.set 0 m (prTbase rec_ + i) (BitVec.ofNat 16 (entry i))) p.dtab })

/-- A beat of pldef: one 48-byte row is read; the last beat acts. -/
def State.beatPldef (s : State) (core : Nat) (r : MRun) : State × MRun :=
  let r := { r with desc := r.desc ++ (s.viewOf core r.ent.ctx).scratchDws core (maOff r.ent.ra.toNat + 48 * r.beat) 6 }
  (if r.beat + 1 = r.ent.beats then s.pldefDone core r else s, r)

/-- What one beat does (R198 to R210). -/
def State.beatAct (s : State) (core : Nat) (r : MRun) : State × MRun :=
  match r.ent.op with
  | 6 => (s.beatAccrd core r, r)
  | 7 => s.beatAccwr core r
  | 8 => (s.modCore core (fun k => (k.setTile r.ent.tile []).markTile r.ent.tile false), r)
  | 9 => s.beatPldef core r
  | 10 => (if r.ent.mark = 0 then s else s.modCore core (fun k => { k with marks := k.marks ++ [(r.ent.ctx, r.ent.tag, r.ent.mark)] }), r)
  | op => if mtMul op then s.beatMul core r else (s, r)

/-- The operation after a beat: its next beat, its next repetition, or its end (R211). -/
def Core.beatNext (k : Core) (r : MRun) : Core :=
  let w := k.mwin + 2
  if r.beat + 1 < r.ent.beats then { k with mwin := w, mrun := some { r with beat := r.beat + 1, waits := r.ent.remote r.rep } }
  else if r.rep + 1 < r.ent.reps then { k with mwin := w, mrun := some { r with beat := 0, rep := r.rep + 1, waits := r.ent.remote (r.rep + 1) } }
  else { k with mwin := w, mfree := w, mrun := none }

/-- What the beat of an operation has written in the tiles: the tiles that it writes, or a row, with their marks. -/
def Core.beatWrote (k : Core) (r : MRun) : List (Nat × BitVec 16) :=
  let t := r.ent.tile
  let row (t i : Nat) : Nat × BitVec 16 := (k.tileRow t i, (Sp.get 0 k.tileMarks t >>> i) &&& 1)
  let all (t : Nat) : List (Nat × BitVec 16) := (List.range 16).map (row t)
  if r.ent.op = 7 then [row t r.beat]
  else if r.ent.op = 4 then all t ++ all (t ^^^ 1)
  else if mtMul r.ent.op then all t else []

/-- Tile writes of a window that differ in the twins: the pair's next bundle mismatches (R46). -/
def State.tileDiverge (s : State) (core : Nat) (r : MRun) : State :=
  match (s.core core).twin with
  | none => s
  | some t =>
    if (s.core core).beatWrote r = ((s.core core).asUpper t).beatWrote r ∨ s.diverges.contains core then s
    else { s with diverges := core :: s.diverges }

/-- The beat that the operation in the array performs, on the stores of one core. -/
def State.beatOwn (core : Nat) (s : State) : State :=
  match (s.core core).mrun with
  | none => s
  | some r => let a := s.beatAct core r; a.1.modCore core (fun k => k.beatNext a.2)

/-- One beat of the operation in the array (R211), or an unused window when its remote rows have not arrived (R214); in both twins of a
tidelocked group (R44, R45). -/
def State.matBeat (s : State) (core : Nat) : State :=
  let k := s.core core
  match k.mrun with
  | none => s
  | some r =>
    if !(k.windowOpen k.mwin) then s
    else
      let s := (s.readDescs core).modCore core (fun k => k.reach k.mwin)
      if r.waits then s.modCore core (fun k => { k with mwin := k.mwin + 2 })
      else (s.bothTwins core (State.beatOwn core)).tileDiverge core r

/-- The remote rows of the next beat have arrived. -/
def State.remoteArrives (s : State) (core : Nat) : State :=
  s.modCore core (fun k => { k with mrun := k.mrun.map (fun r => { r with waits := false }) })

/-! ### Marks (R210) -/

/-- The operation has made its last read of a scratchpad. -/
def MRun.readsDone (r : MRun) : Bool :=
  !(mtMul r.ent.op) && r.ent.op != 9 && (r.ent.op != 7 || decide (16 ≤ r.beat))

/-- The entry reads no scratchpad. -/
def MEnt.readsNone (e : MEnt) : Bool := !(mtMul e.op) && e.op != 7 && e.op != 9

/-- A fired mark. -/
def Core.fire (k : Core) (m : Nat × Nat × Nat) : Core :=
  let c := k.ctx m.1
  k.setCtx m.1 { c with tagF := Sp.put c.tagF m.2.1 m.2.2 }

/-- Fire the first mark that stands in the queue, if nothing before it still reads (its entry keeps its window). -/
def fireQueued : List MEnt → Option ((Nat × Nat × Nat) × List MEnt)
  | [] => none
  | e :: t =>
    if e.op = 10 ∧ e.mark ≠ 0 then some ((e.ctx, e.tag, e.mark), { e with mark := 0 } :: t)
    else if e.readsNone then (fireQueued t).map (fun r => (r.1, e :: r.2)) else none

/-- The mark of the running entry has fired. -/
def MRun.fired (r : MRun) : MRun :=
  let e : MEnt := { r.ent with mark := 0 }
  { r with ent := e }

/-- The next mark fires (R210). -/
def Core.fireMark (k : Core) : Core :=
  match k.marks with
  | m :: t => { k with marks := t }.fire m
  | [] =>
    let running : Bool := match k.mrun with
      | some r => r.readsDone
      | none => true
    let mine : Option (Nat × Nat × Nat) := match k.mrun with
      | some r => if r.ent.op = 10 ∧ r.ent.mark ≠ 0 then some (r.ent.ctx, r.ent.tag, r.ent.mark) else none
      | none => none
    match mine with
    | some m =>
      let k := { k with mrun := k.mrun.map MRun.fired }
      k.fire m
    | none =>
      if !running then k
      else match fireQueued k.mq with
      | some r => { k with mq := r.2 }.fire r.1
      | none => k

end Sys2Proof.Machine
end

