-- ==== Sys2Proof/Machine/Encoder.lean ====
section
/-! DEFINITION. The cluster's Plesal encoder (R258 to R260, R298 to R305): the shortest-path search, ple, plu and the status
record. -/

namespace Sys2Proof.Machine

/-! ### The search (R298) -/

/-- What a search decodes with: the record, its table's codes and the segment's scale. -/
structure Coder where
  record : List Dw
  table : List Nat
  scale : Nat
deriving DecidableEq, Repr

/-- The code that a window decodes to. -/
def Coder.code (q : Coder) (w : Nat) : Nat := plDec (plValue q.record (fun i => q.table.getD i 0) w) q.scale (prOfmt q.record)

/-- A live cost is below another: numeric, so a NaN is below nothing. -/
def costLt (a b : Ex) : Bool := !a.isNaN && !b.isNaN && a.lt b

/-- The cost of reaching a state with target t through a window of code d, from cost c. -/
def costAdd (f : Fmt) (t : Ex) (c : Ex) (d : Nat) : Ex :=
  let v := valp f d
  if v.isNaN || v.isInf then .inf false
  else
    let e := rne32v (exAdd false t v.negate).1
    rne32v (exAdd false c (rne32v (exMul e e).1)).1

/-- The survivor of one state: the predecessors s in ascending order, a strict comparison. -/
def Coder.survive (q : Coder) (t : Ex) (k s' : Nat) (cs : List (Option Ex)) : Option (Ex × Nat) :=
  let l := prL q.record
  let x := s' / 2 ^ (l - 1 - k)
  (List.range (2 ^ k)).foldl (fun best y =>
    let s := s' % 2 ^ (l - 1 - k) * 2 ^ k + y
    match (cs.getD s none) with
    | none => best
    | some c =>
      let n := costAdd (prOfmt q.record) t c (q.code (plWindow l s k x))
      match best with
      | none => some (n, s)
      | some b => if costLt n b.1 then some (n, s) else best) none

/-- The search over targets from weight m on: the end costs, and the predecessors of each weight, latest first. -/
def Coder.search (q : Coder) : Nat → List Ex → List (Option Ex) → List (List Nat) → List (Option Ex) × List (List Nat)
  | _, [], cs, ps => (cs, ps)
  | m, t :: ts, cs, ps =>
    let k := prStep q.record (m % prP q.record)
    let ns := (List.range (2 ^ (prL q.record - 1))).map (fun s' => q.survive t k s' cs)
    Coder.search q (m + 1) ts (ns.map (fun e => e.map (·.1))) (ns.map (fun e => (e.map (·.2)).getD 0) :: ps)

/-- The live state with the least cost, the smaller on a tie. A weight of the span whose decoded code is a NaN makes costs NaN: the first live
state is kept then unless a later cost compares below it (DESIGN CHOICE, log entry 121). -/
def leastState (cs : List (Option Ex)) : Option (Nat × Ex) :=
  (cs.zip (List.range cs.length)).foldl (fun b e =>
    match e.1, b with
    | none, _ => b
    | some c, none => some (e.2, c)
    | some c, some x => if costLt c x.2 then some (e.2, c) else b) none

/-- The states after each weight of the path that ends at `s`, and its start. -/
def tracePath : List (List Nat) → Nat → List Nat → Nat × List Nat
  | [], s, acc => (s, acc)
  | p :: ps, s, acc => tracePath ps (p.getD s 0) (s :: acc)

/-- The body bits of the states after weights m, m + 1, …, at their places (R299). -/
def pathBits (r : List Dw) : Nat → List Nat → Nat
  | _, [] => 0
  | m, s :: t => s / 2 ^ (prL r - 1 - prStep r (m % prP r)) * 2 ^ prBit r m + pathBits r (m + 1) t

/-! ### CRC-16 (R293) -/

def crc16Bit (c : Nat) : Nat := if bitOf c 15 then (c * 2 ^^^ 0x1021) % 65536 else c * 2 % 65536
def crc16 (bs : List Byte) : Nat :=
  bs.foldl (fun c b =>
    crc16Bit (crc16Bit (crc16Bit (crc16Bit (crc16Bit (crc16Bit (crc16Bit (crc16Bit (c ^^^ b.toNat * 256))))))))) 0xFFFF

/-- The CRC of a segment from its header (whatever its CRC field holds) and its body. -/
def segCrc (h body words : Nat) : Nat :=
  crc16 (bytesOf 8 h ++ bytesOf 6 (h / 2 ^ 80) ++ bytesOf (4 * words) body)

/-- The header with its CRC field set. -/
def setCrc (h body words : Nat) : Nat := h - sgCrc h * 2 ^ 64 + segCrc h body words * 2 ^ 64

/-! ### Status records (R258) -/

/-- The status record's place is good. -/
def State.stsOk (s : State) (core sts : Nat) : Bool := decide (sts % 16 = 0) && decide (sts + 16 ≤ (s.core core).scratchSize)

/-- The writes of a command, one after another: each a core's scratchpad and the cells (R305). -/
abbrev EncWrites := List (Nat × Cells)

/-- Bytes as the encoder writes them: word by word (R305). -/
def wordWrites (core off : Nat) : List Byte → EncWrites
  | a :: b :: c :: d :: t => (core, cellsAt off [a, b, c, d]) :: wordWrites core (off + 4) t
  | [] => []
  | t => [(core, cellsAt off t)]

/-- The write of the status record. -/
def State.statusWrite (s : State) (core sts state count cost : Nat) : EncWrites :=
  if s.stsOk core sts then [(core, cellsAt sts (bytesOf 4 state ++ bytesOf 4 count ++ bytesOf 4 cost ++ bytesOf 4 0))] else []

/-- Write the status record. -/
def State.encStatus (s : State) (core sts state count cost : Nat) : State :=
  (s.statusWrite core sts state count cost).foldl (fun a w => a.scratchWrite w.1 w.2) s

/-- n bytes at an offset lie inside the core's scratchpad at an alignment. -/
def State.region (s : State) (core off n align : Nat) : Bool :=
  decide (off % align = 0) && decide (off + n ≤ (s.core core).scratchSize)

/-- The record at PROF and the codes of its table, when they lie inside the scratchpad and the record is well formed. -/
def State.profAt (s : State) (core prof : Nat) : Option (List Dw × List Nat) :=
  if !(s.region core prof 32 16) then none
  else
    let r := s.scratchDws core prof 4
    if prMalformed r || !(s.region core prof (prBytes r) 16) then none
    else some (r, (List.range (if prTable r then 2 ^ prL r else 0)).map (fun i => s.scratchNat core (prof + 32 + 2 * i) 2))

/-! ### ple (R259, R299, R300) -/

/-- Bytes of a strip of nw weights. -/
def stripBytes (r : List Dw) (nw : Nat) : Nat :=
  let l := prSeglen r
  nw / l * sgBytes (prWords r l) + (if nw % l = 0 then 0 else sgBytes (prWords r (nw % l)))

/-- One segment as ple writes it: its bytes and its end cost. -/
def encodeSegment (r : List Dw) (table : List Nat) (scale : Nat) (anchor : Option Nat) (last : Bool) (ts : List Ex) :
    List Byte × Ex :=
  let q : Coder := { record := r, table := table, scale := scale }
  let start := (List.range (2 ^ (prL r - 1))).map (fun s =>
    match anchor with
    | some a => if s = a then some (Ex.zero false) else none
    | none => some (Ex.zero false))
  let o := q.search 0 ts start []
  let e := (leastState o.1).getD (0, .zero false)
  let path := tracePath o.2 e.1 []
  let body := pathBits r 0 path.2
  let words := prWords r ts.length
  let h := path.1 + scale * 2 ^ 16 + ts.length * 2 ^ 32 + prPslot r * 2 ^ 48 + (if last then 2 ^ 56 else 0)
    + (if anchor.isSome then 2 ^ 57 else 0) + words * 2 ^ 80 + prPtag r * 2 ^ 96
  (bytesOf 16 (setCrc h body words) ++ padTo 16 (bytesOf (4 * words) body), e.2)

/-- A ple command's block, as its checks see it: the first offset of each region. -/
def State.pleOk (s : State) (core : Nat) (b : List Dw) (r : List Dw) : Bool :=
  let nw := dwOf b 4
  let flg := dwOf b 5
  let pin := bitOf flg 1
  let n := (nw + prSeglen r - 1) / prSeglen r
  let w := if bitOf flg 0 then 4 else 2
  let finite (v : Ex) : Bool := !v.isNaN && !v.isInf
  decide (nw ≠ 0) && decide (nw < 2 ^ 32) && decide (flg < 4)
    && s.region core (dwOf b 0) (nw * w) 4 && s.region core (dwOf b 3) (2 * n) 2
    && (!pin || s.region core (dwOf b 6) (2 * n) 2) && s.region core (dwOf b 1) (stripBytes r nw) 16
    && (List.range nw).all (fun i => finite (valFloat (if w = 4 then 0 else 1) (s.scratchNat core (dwOf b 0 + w * i) w)))
    && (List.range n).all (fun i => finite (valFloat 1 (s.scratchNat core (dwOf b 3 + 2 * i) 2)))
    && (!pin || (List.range n).all (fun i => decide (s.scratchNat core (dwOf b 6 + 2 * i) 2 < 2 ^ (prL r - 1))))

/-- The writes of the segments of a ple command, in order, and the cost. -/
def State.pleSegs (src : State) (core : Nat) (b : List Dw) (r : List Dw) (table : List Nat) :
    Nat → Nat → Nat → Ex → EncWrites × Ex
  | 0, _, _, cost => ([], cost)
  | fuel + 1, i, out, cost =>
    let nw := dwOf b 4
    let l := prSeglen r
    let flg := dwOf b 5
    let w := if bitOf flg 0 then 4 else 2
    let len := min l (nw - i * l)
    let ts := (List.range len).map (fun j =>
      valFloat (if w = 4 then 0 else 1) (src.scratchNat core (dwOf b 0 + w * (i * l + j)) w))
    let anchor := if bitOf flg 1 then some (src.scratchNat core (dwOf b 6 + 2 * i) 2) else none
    let e := encodeSegment r table (src.scratchNat core (dwOf b 3 + 2 * i) 2) anchor (decide (fuel = 0)) ts
    let t := State.pleSegs src core b r table fuel (i + 1) (out + e.1.length) (rne32v (exAdd false cost e.2).1)
    (wordWrites core out e.1 ++ t.1, t.2)

/-- ple (R258, R259, R300): what the command reads, it reads now; its writes, the status record last. -/
def State.pleRun (s : State) (core : Nat) (b : List Dw) : EncWrites :=
  let sts := dwOf b 7
  if !(s.stsOk core sts) then []
  else match s.profAt core (dwOf b 2) with
  | none => s.statusWrite core sts 2 0 0
  | some p =>
    if !(s.pleOk core b p.1) then s.statusWrite core sts 2 0 0
    else
      let n := (dwOf b 4 + prSeglen p.1 - 1) / prSeglen p.1
      let o := s.pleSegs core b p.1 p.2 n 0 (dwOf b 1) (.zero false)
      o.1 ++ s.statusWrite core sts 1 n (rne32 o.2)

/-! ### plu (R260, R301, R302) -/

/-- Bits i to i + n − 1 of E for a body held as a number. -/
def eBitsNat (anchor l body i n : Nat) : Nat := (anchor % 2 ^ (l - 1) + 2 ^ (l - 1) * body) / 2 ^ i % 2 ^ n

/-- The decoded codes of all weights of a segment. -/
def Coder.codes (q : Coder) (anchor body len : Nat) : List Nat :=
  (List.range len).map (fun m => q.code (eBitsNat anchor (prL q.record) body (prBit q.record (m + 1) - 1) (prL q.record)))

/-- The body after the pinned search of R301 over weights lo to hi. -/
def Coder.repair (q : Coder) (anchor body len j w newt : Nat) (codes : List Nat) : Nat :=
  let r := q.record
  let l := prL r
  let lo := j - w
  let hi := min (len - 1) (j + w)
  let start := eBitsNat anchor l body (prBit r lo) (l - 1)
  let ts := (List.range (hi + 1 - lo)).map (fun i =>
    if lo + i = j then valFloat 0 newt else valp (prOfmt r) (codes.getD (lo + i) 0))
  let o := q.search lo ts ((List.range (2 ^ (l - 1))).map (fun s => if s = start then some (Ex.zero false) else none)) []
  let send := if hi < len - 1 then eBitsNat anchor l body (prBit r (hi + 1)) (l - 1) else ((leastState o.1).map (·.1)).getD 0
  let b0 := prBit r lo
  let b1 := prBit r (hi + 1)
  body - fld body (b1 - 1) b0 * 2 ^ b0 + pathBits r lo (tracePath o.2 send []).2

/-- The checks of R301 that follow the record's. -/
def State.pluOk (s : State) (core : Nat) (b r : List Dw) : Bool :=
  let seg := dwOf b 0
  let h := s.scratchNat core seg 16
  let size := (s.core core).scratchSize
  !(s.sgOutside core seg size) && !(sgReserved h) && decide (sgLen h ≠ 0) && !(sgShape r h) && decide (sgLen h ≤ prSeglen r)
    && decide (sgPtag h = prPtag r)
    && decide (segCrc h (s.scratchNat core (seg + 16) (4 * sgWords h)) (sgWords h) = sgCrc h)
    && decide (fld (dwOf b 1) 15 0 < sgLen h)
    && (let v := valFloat 0 (fld (dwOf b 2) 31 0); !v.isNaN && !v.isInf)
    && s.region core (dwOf b 4) ((sgLen h + 7) / 8) 1

/-- The block of a plu is malformed (R301 step 1). -/
def pluBad (b : List Dw) : Bool :=
  decide (2 ^ 32 ≤ dwOf b 1) || decide (2 ^ 32 ≤ dwOf b 2) || decide (dwOf b 5 ≠ 0) || decide (dwOf b 6 ≠ 0)
    || decide (dwOf b 0 % 16 ≠ 0) || decide (dwOf b 3 % 16 ≠ 0)

/-- A mask of bits, as bytes. -/
def maskBytes (bits : List Bool) : List Byte :=
  bytesOf ((bits.length + 7) / 8) ((bits.zip (List.range bits.length)).foldl (fun a e => if e.1 then a + 2 ^ e.2 else a) 0)

/-- plu (R258, R260, R301, R302): what the command reads, it reads now; its writes, the status record last. -/
def State.pluRun (s : State) (core : Nat) (b : List Dw) : EncWrites :=
  let sts := dwOf b 7
  if !(s.stsOk core sts) then []
  else match (if pluBad b then none else s.profAt core (dwOf b 3)) with
  | none => s.statusWrite core sts 2 0 0
  | some p =>
    if !(s.pluOk core b p.1) then s.statusWrite core sts 2 0 0
    else
      let seg := dwOf b 0
      let h := s.scratchNat core seg 16
      let words := sgWords h
      let body := s.scratchNat core (seg + 16) (4 * words)
      let j := fld (dwOf b 1) 15 0
      let w := fld (dwOf b 1) 31 16
      let q : Coder := { record := p.1, table := p.2, scale := sgScale h }
      let old := q.codes (sgAnchor h) body (sgLen h)
      let body' := q.repair (sgAnchor h) body (sgLen h) j w (fld (dwOf b 2) 31 0) old
      let new := q.codes (sgAnchor h) body' (sgLen h)
      let diff := (old.zip new).map (fun e => e.1 != e.2)
      let w0 := prBit p.1 (j - w) / 32
      let w1 := (prBit p.1 (min (sgLen h - 1) (j + w) + 1) - 1) / 32
      wordWrites core (seg + 16 + 4 * w0) (bytesOf (4 * (w1 + 1 - w0)) (body' / 2 ^ (32 * w0)))
        ++ wordWrites core (seg + 8) (bytesOf 2 (segCrc h body' words))
        ++ wordWrites core (dwOf b 4) (maskBytes diff)
        ++ s.statusWrite core sts 1 (diff.filter id).length 0

/-! ### The encoder (R303) -/

/-- What a command writes; one that has waited more than 1 ms is dropped with STATE 3. -/
def State.encRun (s : State) (c : EncCmd) : EncWrites :=
  if c.since + 1000 < s.time then s.statusWrite c.core (dwOf c.block 7) 3 0 0
  else if c.update then s.pluRun c.core c.block else s.pleRun c.core c.block

/-- The encoder goes on with the writes of its command, one in a step, so that an mmap beat may come between two words (R305); once they
are made it takes its next command, and reads all that it needs (R304; DEDUCED, log entry 127). -/
def State.encStart (s : State) (clu : Nat) : State :=
  match (s.clu clu).encOut with
  | w :: t => (s.modClu clu (fun k => { k with encOut := t })).scratchWrite w.1 w.2
  | [] =>
    match (s.clu clu).enc with
    | [] => s
    | c :: t => s.modClu clu (fun k => { k with enc := t, encOut := s.encRun c })

/-- The first command that has waited more than 1 ms is dropped with STATE 3. -/
def State.encDrop (s : State) (clu : Nat) : State :=
  match (s.clu clu).enc.find? (fun c => decide (c.since + 1000 < s.time)) with
  | none => s
  | some c => (s.modClu clu (fun k => { k with enc := k.enc.erase c })).encStatus c.core (dwOf c.block 7) 3 0 0

end Sys2Proof.Machine
end

