-- ==== Sys2Proof/Machine/Ckp.lean ====
section
/-! DEFINITION. The checkpoint streamer (R261, R262, R408, R417 to R419): its sub-operations, its passes, and one page. -/

namespace Sys2Proof.Machine

/-! ### Status records -/

/-- A 16-byte status record in a scratchpad, when its place is good (R262). -/
def State.ckpRecord (s : State) (core sts a b : Nat) : State :=
  if s.stsOk core sts then s.scratchWrite core (cellsAt sts (bytesOf 8 a ++ bytesOf 8 b)) else s

/-- The refusal of a START (R262): its trap number, or none. -/
def ckpRefused (b : List Dw) : Option Nat :=
  let v := dwOf b 0
  let n := dwOf b 1
  if v % 4096 ≠ 0 ∨ n % 4096 ≠ 0 ∨ dwOf b 2 % 4096 ≠ 0 then some cALIGNMENT
  else if n = 0 ∨ 2 ^ 57 < v % 2 ^ 57 + n ∨ !(canonicalVa v) then some cILLEGAL_MOVE else none

/-- Pass 1 of a range begins (R417); a QUIESCE that came after its START lets one more pass run. -/
def State.ckpBegin (s : State) (core : Nat) (owner : Byte) (root : Nat) (b : List Dw) : State :=
  { s with ckp := { s.ckp with
      active := true, vbase := dwOf b 0 % 2 ^ 57, vlen := dwOf b 1, tbase := dwOf b 2, root := root, owner := owner, pass := 1
      sent := 0, pos := dwOf b 0 % 2 ^ 57, stop := false, quies := s.ckp.nextQ.map (fun q => (q.1, q.2, 2)), next := none, nextQ := []
      stsCore := core, sts := dwOf b 3 } }

/-- ckp START: refused, or it begins, or it waits for the current page of the active range (R262, R417). -/
def State.ckpStart (s : State) (core : Nat) (owner : Byte) (root : Nat) (b : List Dw) : State :=
  match ckpRefused b with
  | some n => s.ckpRecord core (dwOf b 3) (2 ^ 64 - 1) n
  | none =>
    if s.ckp.active then { s with ckp := { s.ckp with next := some (core, owner, root, b), nextQ := [] } }
    else s.ckpBegin core owner root b

/-- The active range has ended (R418, R419). A QUIESCE whose final pass has not ended then writes no record (DEDUCED, log entry 88). -/
def State.ckpEnd (s : State) : State := { s with ckp := { s.ckp with active := false, stop := false, quies := [] } }

/-- ckp STOP: the passes end after the current page, those of a START that waits included (R417, R419). It writes no record, of an active
range neither (DESIGN CHOICE, log entry 118). -/
def State.ckpStop (s : State) : State :=
  if s.ckp.active then { s with ckp := { s.ckp with stop := true, next := none, nextQ := [] } } else s

/-- The record of the last completed pass, or of none. -/
def State.ckpLast (s : State) (core sts : Nat) : State := s.ckpRecord core sts s.ckp.lastPass s.ckp.lastSent

/-- ckp QUIESCE: the current pass ends and one more, the final pass, follows (R418). After a START that still waits, the passes are
those of its range; after a STOP no range is active (DEDUCED, log entry 88). -/
def State.ckpQuiesce (s : State) (core : Nat) (b : List Dw) : State :=
  let c := s.ckp
  if c.next.isSome then { s with ckp := { c with nextQ := c.nextQ ++ [(core, dwOf b 3)] } }
  else if c.active && !c.stop then { s with ckp := { c with quies := c.quies ++ [(core, dwOf b 3, c.pass + 1)] } }
  else s.ckpLast core (dwOf b 3)

/-- ckp STATUS. While a range is active it records the current pass and the pages sent in it so far (DESIGN CHOICE, log entry 119). -/
def State.ckpStatus (s : State) (core : Nat) (b : List Dw) : State :=
  if s.ckp.active then s.ckpRecord core (dwOf b 3) s.ckp.pass s.ckp.sent else s.ckpLast core (dwOf b 3)

/-- A ckp issues with its sub-operation. -/
def State.ckpAct (s : State) (core : Nat) (owner : Byte) (root sub : Nat) (b : List Dw) : State :=
  match sub with
  | 0 => s.ckpStart core owner root b
  | 1 => s.ckpStop
  | 2 => s.ckpQuiesce core b
  | _ => s.ckpStatus core b

/-! ### Leaves (R408) -/

/-- The leaf that maps an address, the bytes that an entry without V leaves unmapped, the fault of the walk (R400, R401), or an entry on a
stack that is not ready (R438). -/
inductive LeafAt where
  | leaf (lvl entry ea : Nat)
  | hole (size : Nat)
  | fault (cause size : Nat)
  | awaited
deriving DecidableEq, Repr

/-- Find the leaf of an address below a table. -/
def State.leafFrom (s : State) (va : Nat) : Nat → Nat → Nat → LeafAt
  | 0, _, _ => .hole 4096
  | fuel + 1, lvl, base =>
    let idx := fld va (56 - 9 * lvl) (48 - 9 * lvl)
    let ea := base + 8 * idx
    let e := s.homeDw ea
    let size := 2 ^ (48 - 9 * lvl)
    if !(s.stackReady ea) then .awaited
    else if s.homeMarked ea || s.deadHome ea then .fault cTRANSLATION size
    else if !(pteV e) then .hole size
    else if pteReserved lvl idx e then .fault cRESERVED_BIT size
    else if pteTable e then State.leafFrom s va fuel (lvl + 1) (ptePfn e * 4096)
    else .leaf lvl e ea

/-! ### One page -/

/-- Every L1 of the device writes back its dirty lines of a physical range (R408 step 3). -/
def State.writeBackRange (s : State) (pa size : Nat) : State :=
  s.cores.foldl (fun a k =>
    k.2.l1.foldl (fun a l =>
      if pa ≤ l.1 * 128 ∧ l.1 * 128 < pa + size then a.writeBackLine k.1 l.1 else a) a) s

/-- Granules copied under a source and a target leaf with their poison marks, 32 bytes at a time (R408 step 4, R411). -/
def State.copyGranules (e t : Nat) (src dst : Nat) : Nat → State → State
  | 0, s => s
  | n + 1, s =>
    let cs := (List.range 32).map (fun i => (dst + i, s.agentByte e (s.freeCtr + (src + i) % 4096) (src + i)))
    let m := s.agentMarked e src
    let s := s.agentStore t cs
    State.copyGranules e t (src + 32) (dst + 32) n (if m then State.agentMark t s (dst / 32) else s)

/-- n pages of 4 KiB from physical `src`, under a leaf, go to the target's virtual addresses from `tva` on, at SYS scope. A stack that is not
ready is awaited, with cause 0 (R438). -/
def State.sendPages (ag : Agent) (e src tva : Nat) : Nat → State → Except XFault State
  | 0, s => .ok s
  | n + 1, s =>
    match s.translate ag accWrite tva with
    | .error f => .error f
    | .ok (s, x) =>
      if !(s.stackReady x.pa) then .error ⟨0, 7, 0⟩ else
      let s := State.copyGranules e x.entry src x.pa 128 s
      State.sendPages ag e (src + 4096) (tva + 4096) n { s with freeCtr := s.freeCtr + 4096 }

/-- D of a leaf is cleared at its home, and the leaf leaves every translation cache (R408 steps 1 and 2). -/
def State.clearD (s : State) (lvl e ea : Nat) : State :=
  let a := adAddr lvl e ea
  let v := s.homeDw a
  (s.homeWrite (dwCells a 8 (if pteD v then v - 64 else v))).dropLeaf a

/-- The range ends, with a record for a fault of the source or of the target (R400): bytes 0 to 7 all ones and the trap number, as of a
START (R262; DESIGN CHOICE, log entry 88). -/
def State.ckpFail (s : State) (cause : Nat) : State := (s.ckpRecord s.ckp.stsCore s.ckp.sts (2 ^ 64 - 1) cause).ckpEnd

/-- After the current page, a STOP ends the passes and a waiting START begins its own (R417, R419). -/
def State.ckpAfter (s : State) : State :=
  match s.ckp.next with
  | some n => s.ckpBegin n.1 n.2.1 n.2.2.1 n.2.2.2
  | none => if s.ckp.stop then s.ckpEnd else s

/-- What is left of the owed ranges without [lo, hi) of the address space at root. -/
def owedMinus (root lo hi : Nat) (l : List (Nat × Nat × Nat)) : List (Nat × Nat × Nat) :=
  l.flatMap (fun o =>
    let a := o.2.1
    let b := a + o.2.2
    if o.1 ≠ root ∨ b ≤ lo ∨ hi ≤ a then [o]
    else (if a < lo then [(root, a, lo - a)] else []) ++ (if hi < b then [(root, hi, b - hi)] else []))

/-- Some of [lo, hi) is owed. -/
def owedIn (root lo hi : Nat) (l : List (Nat × Nat × Nat)) : Bool :=
  l.any (fun o => o.1 == root && decide (o.2.1 < hi) && decide (lo < o.2.1 + o.2.2))

/-- The part [lo, hi) of a page goes to its place at the target. -/
def State.ckpCopy (s : State) (e lo hi pa : Nat) : Except XFault State :=
  let c := s.ckp
  State.sendPages (supervisorAgent c.owner c.root) e pa ((c.tbase + (lo - c.vbase)) % 2 ^ 64) ((hi - lo) / 4096) s

/-- That part, or its place at the target, is on a stack that is not ready: the streamer waits before it clears D (R438). -/
def State.sendWaits (s : State) (e lo hi pa : Nat) : Bool :=
  !(s.regionReady pa (hi - lo)) || (match s.ckpCopy e lo hi pa with
    | .error f => f.waits
    | .ok _ => false)

/-- The part [lo, hi) of a page that lies in the range is sent; until then it is owed (R419). -/
def State.ckpSend (s : State) (e lo hi pa : Nat) : State :=
  match s.ckpCopy e lo hi pa with
  | .error f => s.ckpFail f.cause
  | .ok t => { t with ckp := { t.ckp with sent := t.ckp.sent + 1, owed := owedMinus s.ckp.root lo hi t.ckp.owed } }

/-- D of a page is cleared and its lines are written back: all of the page is owed. -/
def State.ckpClear (s : State) (lvl e ea va size : Nat) : State :=
  let c := s.ckp
  ({ s with ckp := { c with owed := owedMinus c.root va (va + size) c.owed ++ [(c.root, va, size)] } }.clearD lvl e ea).writeBackRange
    (leafPa lvl e va) size

/-- The streamer visits the next leaf of its range (R408, R417). Of a leaf that lies in the range in part it sends that part, and owes the
rest to a later START (DESIGN CHOICE, log entry 88). -/
def State.ckpPage (s : State) : State :=
  let c := s.ckp
  if !c.active || decide (c.vbase + c.vlen ≤ c.pos) then s
  else
    match s.leafFrom c.pos 5 0 c.root with
    | .awaited => s
    | .hole size => ({ s with ckp := { c with pos := c.pos / size * size + size } } : State).ckpAfter
    | .fault cause _ => (s.ckpFail cause).ckpAfter
    | .leaf lvl e ea =>
      let size := leafSize lvl e
      let va := c.pos / size * size
      let lo := max va c.vbase
      let hi := min (va + size) (c.vbase + c.vlen)
      let s0 := s
      let s := { s with ckp := { c with pos := va + size } }
      let pa := leafPa lvl e lo
      let dirty := pteD (s.homeDw (adAddr lvl e ea))
      if paOff pa || !(dirty || owedIn c.root lo hi c.owed) then s.ckpAfter
      else
        match leafCheck s.domain (supervisorAgent c.owner c.root) accRead lvl e ea with
        | some f => (s.ckpFail f.cause).ckpAfter
        | none =>
          if s.sendWaits e lo hi pa then s0 else
          let s := (s.adUpdate accRead lvl e ea).1
          let s := if dirty then s.ckpClear lvl e ea va size else s.writeBackRange pa (hi - lo)
          (s.ckpSend e lo hi pa).ckpAfter

/-- A pass has visited every leaf (R417, R418): its record is written, and the records of the QUIESCEs whose final pass it was. A START that
waits then begins; the passes end after a STOP, or when no QUIESCE waits any more; else the next pass begins. The record goes to the
scratchpad of the START's core, whatever launch holds that core by then (DESIGN CHOICE, log entry 120). -/
def State.ckpPassEnd (s : State) : State :=
  let c := s.ckp
  if !c.active || decide (c.pos < c.vbase + c.vlen) then s
  else
    let s := s.ckpRecord c.stsCore c.sts c.pass c.sent
    let s := (c.quies.filter (fun q => q.2.2 == c.pass)).foldl (fun a q => a.ckpRecord q.1 q.2.1 c.pass c.sent) s
    let left := c.quies.filter (fun q => decide (c.pass < q.2.2))
    let s : State := { s with ckp := { c with
      lastPass := c.pass, lastSent := c.sent, pos := c.vbase, sent := 0, pass := c.pass + 1, quies := left } }
    if c.next.isSome || c.stop then s.ckpAfter
    else if !c.quies.isEmpty && left.isEmpty then s.ckpEnd
    else s

end Sys2Proof.Machine
end

