-- ==== Sys2Proof/Machine/Lz.lean ====
section
/-! DEFINITION. Restricted Lempel-Ziv blocks (R331 to R334): decoding with its checks, and the encoder of cpc. -/

namespace Sys2Proof.Machine

/-- The fields of a block header, from its 128 bits (R331). -/
def lzClen (h : Nat) : Nat := fld h 15 0
def lzUlen (h : Nat) : Nat := fld h 27 16 + 1
def lzCrc (h : Nat) : Nat := fld h 63 32
def lzForm (h : Nat) : Nat := fld h 71 64
def lzLast (h : Nat) : Bool := bitOf h 72

/-- Bytes of a block. -/
def lzBytes (h : Nat) : Nat := 16 + roundUp (lzClen h) 16

/-- The header breaks one of the first three conditions of R333, for a block of `ulen` bytes. A body length above the 4,096
bytes of R331 counts with them. (DEDUCED, log entry 64.) -/
def lzHeaderBad (h ulen : Nat) (last : Bool) : Bool :=
  decide (fld h 31 28 ≠ 0) || decide (fld h 127 80 ≠ 0) || decide (fld h 79 73 ≠ 0) || decide (1 < lzForm h)
    || decide (lzClen h = 0) || decide (4096 < lzClen h) || decide (lzUlen h ≠ ulen) || lzLast h != last

/-- The output of one group's tokens (R332): `prev` is every byte of earlier groups, `acc` this group's bytes so far. -/
def lzGroup (prev : List Byte) (need : Nat) : Nat → List Byte → List Byte → Option (List Byte)
  | _, [], acc => if acc.length = need then some acc else none
  | 0, _ :: _, _ => none
  | fuel + 1, t :: ts, acc =>
    let n := t.toNat % 32 + 1
    if need < acc.length + n then none
    else match t.toNat / 32 with
    | 0 => if ts.length < n then none else lzGroup prev need fuel (ts.drop n) (acc ++ ts.take n)
    | 1 => lzGroup prev need fuel ts (acc ++ List.replicate n 0)
    | 2 =>
      if ts.length < 2 then none
      else
        let d := natOfBytes (ts.take 2)
        let p := prev.length + acc.length
        if 4096 ≤ d ∨ p < d + 1 ∨ prev.length < p - (d + 1) + n then none
        else lzGroup prev need fuel (ts.drop 2) (acc ++ (prev.drop (p - (d + 1))).take n)
    | _ => none

/-- The groups of a body from group g on. -/
def lzGroups (body : List Byte) (ulen groups : Nat) : Nat → Nat → List Byte → Option (List Byte)
  | 0, _, out => some out
  | k + 1, g, out =>
    let off (i : Nat) : Nat := if i < groups then natOfBytes ((body.drop (2 * i)).take 2) else body.length
    let a := off g
    let b := off (g + 1)
    if b < a ∨ body.length < b then none
    else match lzGroup out (min 32 (ulen - 32 * g)) (b - a) ((body.drop a).take (b - a)) [] with
    | none => none
    | some bs => lzGroups body ulen groups k (g + 1) (out ++ bs)

/-- The decompressed bytes of a block whose header is not broken, or none when it is malformed (R333). -/
def lzDecode (h : Nat) (body : List Byte) : Option (List Byte) :=
  let ulen := lzUlen h
  let out :=
    if lzForm h = 0 then (if lzClen h = ulen then some body else none)
    else
      let g := (ulen + 31) / 32
      if natOfBytes (body.take 2) ≠ 2 * g ∨ body.length < 2 * g then none else lzGroups body ulen g g 0 []
  match out with
  | some bs => if crc32c bs = lzCrc h then some bs else none
  | none => none

/-! ### cpc (R334) -/

/-- Bytes that agree from the heads of two lists, at most n. -/
def agree : Nat → List Byte → List Byte → Nat
  | n + 1, a :: s, b :: t => if a = b then agree n s t + 1 else 0
  | _, _, _ => 0

/-- The longest match at p with its source below `base` (32g), and its distance: the smallest distance among equals. -/
def lzMatch (data : List Byte) (p ge base : Nat) : Nat × Nat :=
  let here := data.drop p
  (List.range p).foldl (fun b i =>
    let d := i + 1
    let src := p - d
    if base ≤ src then b
    else
      let n := agree (min (ge - p) (base - src)) (data.drop src) here
      if b.1 < n then (n, d) else b) (0, 0)

/-- Zero bytes from the head, at most n. -/
def zeroRun : Nat → List Byte → Nat
  | n + 1, b :: t => if b = 0 then zeroRun n t + 1 else 0
  | _, _ => 0

/-- A literal run that is being collected becomes a token. -/
def lzFlush (lit : List Byte) : List Byte := if lit.isEmpty then [] else BitVec.ofNat 8 (lit.length - 1) :: lit

/-- The tokens of one group from position p, with the literal run collected so far. -/
def lzTokens (data : List Byte) (ge base : Nat) : Nat → Nat → List Byte → List Byte
  | 0, _, lit => lzFlush lit
  | fuel + 1, p, lit =>
    if ge ≤ p then lzFlush lit
    else
      let z := zeroRun (ge - p) (data.drop p)
      let m := lzMatch data p ge base
      if 2 ≤ z ∧ m.1 ≤ z then lzFlush lit ++ BitVec.ofNat 8 (32 + z - 1) :: lzTokens data ge base fuel (p + z) []
      else if 4 ≤ m.1 then
        lzFlush lit ++ (BitVec.ofNat 8 (64 + m.1 - 1) :: bytesOf 2 (m.2 - 1)) ++ lzTokens data ge base fuel (p + m.1) []
      else if lit.length = 32 then lzFlush lit ++ lzTokens data ge base fuel (p + 1) [data.getD p 0]
      else lzTokens data ge base fuel (p + 1) (lit ++ [data.getD p 0])

/-- The LZ body of a block. -/
def lzBody (data : List Byte) : List Byte :=
  let g := (data.length + 31) / 32
  let toks := (List.range g).map (fun i => lzTokens data (min (32 * i + 32) data.length) (32 * i) 33 (32 * i) [])
  let offs := (List.range g).map (fun i => 2 * g + ((toks.take i).map List.length).foldl (· + ·) 0)
  offs.flatMap (bytesOf 2) ++ toks.flatten

/-- The block cpc writes for a chunk. -/
def lzEncode (data : List Byte) (last : Bool) : List Byte :=
  let lz := lzBody data
  let stored := decide (data.length ≤ lz.length)
  let body := if stored then data else lz
  bytesOf 2 body.length ++ bytesOf 2 (data.length - 1) ++ bytesOf 4 (crc32c data) ++ bytesOf 1 (if stored then 0 else 1)
    ++ bytesOf 1 (if last then 1 else 0) ++ bytesOf 6 0 ++ padTo 16 body

end Sys2Proof.Machine
end

