-- ==== Sys2Proof/Machine/SysRegs.lean ====
section
/-! DEFINITION. The system registers as sysr and sysw see them (R48, R55, R56, R59, R60, R64, R82 to R85, R151, R152, R233, R248,
R284, R297, R343, R380, R404), and the operating point of a pair (R57 to R61). -/

namespace Sys2Proof.Machine

/-! ### Pairs and operating points -/

/-- The physical cores that the running map gives a pair. -/
def State.pairCores (s : State) (pair : Nat) : List Nat :=
  let clu := cluOfPair pair
  let c := s.clu clu
  let m := pair % 8
  ([c.entry (2 * m), c.entry (2 * m + 1)].filter (fun p => decide (p ≤ 16))).map (coreKey clu)

/-- The cores of a pair that some launch holds. -/
def State.pairHolders (s : State) (pair : Nat) : List Nat :=
  (s.cores.filter (fun c => cluOfCore c.1 == cluOfPair pair && c.2.launch.isSome && c.2.logical / 2 == pair % 8)).map (·.1)

/-- A context of a launch is live on the pair (R48). -/
def State.pairLive (s : State) (pair : Nat) : Bool :=
  (s.pairHolders pair).any (fun k => (s.core k).ctxs.any (fun c => c.2.phase == .ready || c.2.phase == .blocked))

/-- The target point of a pair: the higher of its twins' requests, limited to CEIL (R59). -/
def State.pairTarget (s : State) (pair : Nat) : Nat :=
  let reqs := (s.pairCores pair ++ s.pairHolders pair).map (fun k => (s.core k).req)
  min (reqs.foldl max 0) (s.pair pair).ceil

/-- The cycles of a pair: the greater count of the cores that hold it. -/
def State.pairNow (s : State) (pair : Nat) : Nat := ((s.pairHolders pair).map (fun k => (s.core k).now)).foldl max 0

/-- A core of the pair counts cycles: a context of it issues, and nothing freezes it. -/
def State.pairTicks (s : State) (pair : Nat) : Bool :=
  (s.pairHolders pair).any (fun k => (s.core k).run.isSome && (s.core k).frozen.isNone)

/-- A target that differs from the current point starts a move, unless one is under way: on a fall the clock changes at once. The
move takes the latency of R58 in the pair's cycles (R59). (DEDUCED, log entry 34.) -/
def State.retarget (s : State) (pair : Nat) : State :=
  let p := s.pair pair
  let t := s.pairTarget pair
  if p.moving.isSome ∨ t = p.cur then s
  else s.setPair pair { p with
    moving := some t, moveEnd := s.pairNow pair + Config.settling p.cur t, cur := if p.cur < t then p.cur else t }

/-- The move under way ends once its latency has passed (a pair on which nothing issues counts no bundles, so its latency passes
unseen), and the next one starts (R59). -/
def State.opMoveDone (s : State) (pair : Nat) : State :=
  let p := s.pair pair
  match p.moving with
  | none => s
  | some t =>
    if s.pairTicks pair ∧ s.pairNow pair < p.moveEnd then s
    else (s.setPair pair { p with moving := none, cur := t }).retarget pair

/-- CEIL of a pair becomes v (R60, R61). -/
def State.ceilTo (s : State) (pair v : Nat) : State := (s.modPair pair (fun p => { p with ceil := v })).retarget pair

/-- Supervisor software writes CEIL. -/
def State.ceilSet (s : State) (pair v : Nat) : State := (s.modPair pair (fun p => { p with ceilSet := v })).ceilTo pair v

/-- A write of PAIRCFG (R48): 10 and 11, and a write while a context is live on the pair, leave MODE. -/
def State.paircfgSet (s : State) (core : Nat) (v : Dw) : State :=
  let m := v.toNat % 4
  let pair := s.pairOf core
  if 2 ≤ m ∨ s.pairLive pair then s else s.modPair pair (fun p => { p with mode := BitVec.ofNat 2 m })

/-! ### Which registers exist, and who may use them (R152) -/

/-- The number names a register of R152. -/
def sysListed (n : Nat) : Bool := (0x40 ≤ n && n ≤ 0x86) || (0x88 ≤ n && n ≤ 0x91)

/-- User contexts may read it; EGRANT among them, of which R55 says only who may write it (DESIGN CHOICE, log entry 103). -/
def sysUserRead (n : Nat) : Bool := n ≤ 0x7F || n == 0x8D || n == 0x91

/-- User contexts may write it; TEPC and TPEND take writes in a handler only, and elsewhere ignore them (R149). -/
def sysUserWrite (n : Nat) : Bool :=
  (0x45 ≤ n && n ≤ 0x47) || n == 0x4A || (0x4D ≤ n && n ≤ 0x51) || n == 0x56 || n == 0x57 || (0x5B ≤ n && n ≤ 0x5D)

/-- The value is one the register's definition refuses (R151): PHSEL with DIE 0 and NUM 32 or more (R343); UHVEC or UIVEC with a bit
of [4:0], or RINGBASE with a bit of [5:0], where R152 and R345 say that they must be 0. (DEDUCED, log entry 86.) -/
def sysRefuses (n : Nat) (v : Dw) : Bool :=
  (n == 0x5C && !(bitOf v.toNat 8) && decide (32 ≤ v.toNat % 256))
    || ((n == 0x4F || n == 0x51) && decide (v.toNat % 32 ≠ 0)) || (n == 0x88 && decide (v.toNat % 64 ≠ 0))

/-- The fault of a sysr (R151): register number t, destination b. -/
def sysrFault (priv : Bool) (t b : Dw) : Option Nat :=
  let n := t.toNat
  if 2 ^ 12 ≤ n ∨ !(sysListed n) ∨ !(isWritable (b.toNat % 256)) then some cILLEGAL_MOVE
  else if !priv ∧ !(sysUserRead n) then some cPERMISSION else none

/-- The fault of a sysw (R151): register number a, value t. -/
def syswFault (priv : Bool) (a t : Dw) : Option Nat :=
  let n := a.toNat
  if 2 ^ 12 ≤ n ∨ !(sysListed n) then some cILLEGAL_MOVE
  else if !priv ∧ !(sysUserWrite n) then some cPERMISSION
  else if sysRefuses n t then some cILLEGAL_MOVE else none

/-! ### Reading -/

/-- The watermark of a channel (R247). -/
def Chan.watermark (h : Chan) : Nat :=
  match h.open_ with
  | [] => h.next
  | i :: _ => i

/-- CHSTAT of a channel (R248). -/
def Chan.stat (h : Chan) : Nat := h.watermark % 2 ^ 32 * 2 ^ 32 + min h.errs 0xFFFF * 2 ^ 16 + min h.stalls 0xFFFF

/-- WAKESTAT of a context (R152). -/
def Core.wakestat (k : Core) (x : Nat) : Nat :=
  let own := k.comps.foldl (fun a e => if e.2.owner = some x then a + 2 ^ e.1 else a) 0
  let c := k.ctx x
  own * 2 ^ 16 + (if c.ovf then 256 else 0) + c.tokens

/-- LAUNCH (R380). -/
def Launch.reg (l : Launch) : Nat :=
  l.launchId * 2 ^ 32 + (if l.lenient then 2 ^ 11 else 0) + (if l.tidelocked then 2 ^ 10 else 0) + l.cls * 256

/-- The value of a system register as a context reads it; `fp` and `bound` are FPFLAGS and BOUND before this bundle (R84,
R232). -/
def State.sysRead (s : State) (core x : Nat) (fp : BitVec 5) (bound : Bool) (n : Nat) : Dw :=
  let k := s.core core
  let c := k.ctx x
  let p := s.pair (s.pairOf core)
  let b (v : Nat) : Dw := BitVec.ofNat 64 v
  match n with
  | 0x40 => b (k.logical % 2 * 8 + (if (s.clu (cluOfCore core)).loneOf k.logical then 4 else 0) + p.mode.toNat)
  | 0x41 => b ((if p.grantEn then 2 ^ 16 else 0) + p.grant.toNat)
  | 0x42 => b (p.stalls * 2 ^ 16 + min p.sum 0xFFFF)
  | 0x43 => b (min c.setLen 0xFFFF * 2 ^ 10 + (if p.moving.isSome then 512 else 0) + p.ceil % 8 * 64 + k.req % 8 * 8 + p.cur % 8)
  | 0x44 => b (k.replay * 2 ^ 32 + k.sconf)
  | 0x45 => c.sys.rstSeed
  | 0x46 => c.sys.rstCtr.setWidth 64
  | 0x47 => fp.setWidth 64
  | 0x48 => b ((if c.uih then 8 else 0) + (if c.inh then 4 else 0) + (if c.uip.isEmpty then 0 else 2) + (if c.priv then 1 else 0))
  | 0x49 => c.sys.tcause
  | 0x4A => c.sys.tepc
  | 0x4B => c.sys.taddr
  | 0x4C => c.sys.titer
  | 0x4D => c.sys.tpend0
  | 0x4E => c.sys.tpend1
  | 0x4F => c.sys.uhvec
  | 0x50 => c.sys.uhmask
  | 0x51 => c.sys.uivec
  | 0x52 => b c.loops.l0.lcnt
  | 0x53 => b c.loops.l1.lcnt
  | 0x54 => b c.loops.l2.lcnt
  | 0x55 => b c.loops.mliter
  | 0x56 => b (k.wakestat x)
  | 0x57 => if bound then 1 else 0
  | 0x58 => b k.gen
  | 0x59 => b k.drained
  | 0x5A => b (k.reqsAcked * 2 ^ 32 + k.ovfd * 2 ^ 16 + k.log.length)
  | 0x5B => c.sys.pderr
  | 0x5C => c.sys.phsel
  | 0x5D => b (s.phaser (phselKey core c.sys.phsel.toNat)).stat
  | 0x5E => b (s.launch c.launch).reg
  | 0x5F => c.sys.xfstat
  | n =>
    if n < 0x80 then b (match Sp.find? k.chans (n - 0x60) with
      | some h => h.stat
      | none => 0)
    else if n ≤ 0x86 then s.cluReg (cluOfCore core) n
    else s.dieReg (dieOfCore core) n

/-- SCONF of the upper twin of a tidelocked group as it stands now: its own, and what the lower twin has counted since (R33, R44). -/
def Core.upperConf (up k : Core) : Nat := min 0xFFFFFFFF (up.sconf + (k.confs - up.confAt))

/-- The upper twin reads another value of system register n than the lower one: UPPER, its core's own request and its own counts (R45, R46,
R48, R59, R64). (DEDUCED, log entry 20.) -/
def State.twinReadsOther (s : State) (core n : Nat) : Bool :=
  match s.upperOf core with
  | none => false
  | some u =>
    let k := s.core core
    let up := s.core u
    n == 0x40 || (n == 0x43 && up.req != k.req) || (n == 0x44 && (up.replay != k.replay || up.upperConf k != k.sconf))

/-! ### Writing -/

def State.modSys (s : State) (core x : Nat) (f : CtxSys → CtxSys) : State := s.modCtx core x (fun c => { c with sys := f c.sys })

/-- A write of TPEND (R152): DIST 11 leaves DIST. -/
def tpendWrite (old v : Dw) : Dw :=
  let d := if v.toNat % 4 = 3 then old.toNat % 4 else v.toNat % 4
  BitVec.ofNat 64 (v.toNat / 32 * 32 + d)

/-- A write of PHSTAT (R343): only the owner's writes clear bits of OVERRUN. -/
def State.phstatWrite (s : State) (core x : Nat) (v : Dw) : State :=
  let key := phselKey core (s.ctx core x).sys.phsel.toNat
  let f := s.phaser key
  if f.owner = some (core, x) then s.setPhaser key { f with overrun := f.overrun - (f.overrun &&& fld v.toNat 31 16) } else s

/-- The effect of a sysw (R151, R152). Fields that are RO or reserved keep their values. A core that the grant has frozen stays frozen to the
next period when EN becomes 0 (DESIGN CHOICE, log entry 100). A sysw of a tidelocked pair writes both twins' REPLAYS (R44). -/
def State.sysWrite (s : State) (core x n : Nat) (v : Dw) : State :=
  let w := v.toNat
  let c := s.ctx core x
  let pair := s.pairOf core
  match n with
  | 0x40 => s.paircfgSet core v
  | 0x41 => s.modPair pair (fun p => { p with grantEn := bitOf w 16, grant := BitVec.ofNat 16 w })
  | 0x42 => s.modPair pair (fun p => { p with stalls := fld w 47 16 })
  | 0x43 => s.ceilSet pair (fld w 8 6)
  | 0x44 =>
    let s := s.modCore core (fun k => { k with replay := fld w 63 32, sconf := fld w 31 0 })
    match s.upperOf core with
    | some up =>
      let n := (s.core core).confs
      s.modCore up (fun k => { k with replay := fld w 63 32, sconf := fld w 31 0, confAt := n })
    | none => s
  | 0x45 => s.modSys core x (fun y => { y with rstSeed := v })
  | 0x46 => s.modSys core x (fun y => { y with rstCtr := v.setWidth 48 })
  | 0x47 => s.modSys core x (fun y => { y with fp := v.setWidth 5 })
  | 0x4A => if c.inHandler then
      s.modCtx core x (fun c => { c with sys := { c.sys with tepc := v }, saved := c.saved.map (fun z => { z with part2 := false, needM := 0, needE := 0 }) })
    else s
  | 0x4D => if c.inHandler then s.modSys core x (fun y => { y with tpend0 := tpendWrite y.tpend0 v }) else s
  | 0x4E => if c.inHandler then s.modSys core x (fun y => { y with tpend1 := tpendWrite y.tpend1 v }) else s
  | 0x4F => s.modSys core x (fun y => { y with uhvec := v })
  | 0x50 => s.modSys core x (fun y => { y with uhmask := BitVec.ofNat 64 (fld w 15 1 * 2) })
  | 0x51 => s.modSys core x (fun y => { y with uivec := v })
  | 0x56 => if bitOf w 8 then s.modCtx core x (fun c => { c with ovf := false }) else s
  | 0x57 => if bitOf w 0 then s.modSys core x (fun y => { y with bound := false }) else s
  | 0x5A => s.modCore core (fun k => { k with reqsAcked := fld w 47 32, ovfd := fld w 31 16 })
  | 0x5B => if bitOf w 0 then s.modSys core x (fun y => { y with pderr := BitVec.ofNat 64 (y.pderr.toNat / 2 * 2) }) else s
  | 0x5C => s.modSys core x (fun y => { y with phsel := BitVec.ofNat 64 (w % 512) })
  | 0x5D => s.phstatWrite core x v
  | n =>
    if 0x80 ≤ n ∧ n ≤ 0x86 then s.cluRegWrite (cluOfCore core) n v
    else if 0x88 ≤ n then s.dieRegWrite (dieOfCore core) n v
    else s

/-- sysr (R151): the value is a plain write to the register that port b names. -/
def ctSysr (fp : BitVec 5) (bound : Bool) (core x : Nat) (g : Trig) (r : State × Fx) : State × Fx :=
  let v := r.1.sysRead core x fp bound g.ts.toNat
  (r.1.modCtx core x (fun c => c.push
    { due := c.count + 1, born := c.count, unit := rankPlain, slot := g.slot, dest := some (g.sb.setWidth 8), latch := false, val := some (.s v) }), r.2)

/-- sysw (R151): the write takes effect after the bundle. -/
def ctSysw (_core _x : Nat) (g : Trig) (r : State × Fx) : State × Fx := (r.1, { r.2 with sysw := some (g.sa.toNat, g.ts) })

end Sys2Proof.Machine
end

