-- ==== Sys2Proof/Machine/Engine.lean ====
section
/-! DEFINITION. The engine queue: dispatch and its faults, issue, waiting heads, channels and the start of transfers (R41, R144,
R245 to R257, R279, R340, R344). -/

namespace Sys2Proof.Machine

/-! ### The slot-7 word (R114) -/

def egOp (w : Nat) : Nat := fld w 23 19
def egCh (w : Nat) : Nat := fld w 18 14
def egReg (w : Nat) : Nat := fld w 13 10

/-- Bytes of the descriptor or parameter block, which are also its alignment (R249, R254, R259 to R261, R329); 0 for none. -/
def egBlock (op : Nat) : Nat :=
  if op = 1 ∨ op = 6 ∨ op = 7 ∨ op = 8 ∨ op = 18 then 32
  else if (2 ≤ op ∧ op ≤ 5) ∨ op = 16 ∨ op = 17 then 64 else 0

/-- Declared beats (R115): the immediate plus 1 where it is a beat count, else 1. -/
def egBeats (op imm : Nat) : Nat :=
  if (1 ≤ op ∧ op ≤ 5) ∨ op = 7 ∨ op = 8 ∨ op = 16 ∨ op = 17 then imm % 256 + 1 else 1

/-- The operation names a channel (R246, R253). -/
def egChannel (op : Nat) : Bool := 1 ≤ op && op ≤ 10
/-- A phaser operation (R256). -/
def egPhaser (op : Nat) : Bool := 11 ≤ op && op ≤ 15

/-- The address registers that the dispatch of a slot-7 word reads. -/
def egRegs (w : Nat) : List Nat := if egOp w = 0 then [] else [egReg w]

/-- A register operand raises SCHEDULE_FAULT (R253, R256). -/
def egSchedule (op a imm : Nat) : Bool :=
  if op = 9 then decide (fld a 63 35 ≠ 0) || decide (4 < fld a 34 32)
  else if op = 10 then decide (fld a 63 32 ≠ 0)
  else if egPhaser op then
    decide (fld a 63 48 ≠ 0) || decide (fld a 15 8 ≠ 0) || (op != 14 && decide (fld a 47 16 ≠ 0)) ||
      (!(bitOf imm 7) && decide (fld a 7 0 ≠ 0))
  else false

/-- The trap of a slot-7 dispatch by its register value (R119 step 7). The check of a block's address reads nothing and leaves XFSTAT
(DEDUCED, log entry 97). -/
def State.engFault (s : State) (core x w imm : Nat) : Option Trap :=
  let op := egOp w
  let a := ((s.ctx core x).bank.areg (egReg w)).toNat
  if egSchedule op a imm then some { cause := cSCHEDULE_FAULT, pos := 7 }
  else if egChannel op && (Sp.find? (s.core core).chans (egCh w)).isNone then some { cause := cPERMISSION, pos := 7 }
  else if egBlock op = 0 then none
  else match s.locate core x 1 { va := a, n := egBlock op, align := egBlock op, kind := accRead } with
  | .error t => some { t with pos := 7, xfstat := none }
  | .ok _ => none

/-- A dispatch would exceed the occupancy of 16 in strict mode (R246). -/
def State.engQueueFull (s : State) (core w : Nat) : Bool :=
  let lenient : Bool := match s.launchOf core with
    | some l => l.lenient
    | none => false
  isTransferOp (egOp w) && !lenient && decide (16 ≤ (Sp.get {} (s.core core).chans (egCh w)).open_.length)

/-- Slot 7 is dispatched (R31 step 6, R245, R246, R252). A nop enters an empty queue only to make its bundle wait (`al`, R40). A
lenient-mode command that makes the occupancy exceed 16 counts a stall, and will wait at the head (R246). -/
def State.engDispatch (s : State) (core x w imm : Nat) (al : Bool := false) : State :=
  let k := s.core core
  let c := k.ctx x
  let op := egOp w
  if op = 0 then
    (if k.eq.isEmpty && !al then s else s.setCore core { k with eq := k.eq ++ [{ ctx := x, op := 0, cyc := k.now }] })
  else
    let h := Sp.get {} k.chans (egCh w)
    let excess := isTransferOp op && decide (16 ≤ h.open_.length)
    let e : EEnt := { ctx := x, op := op, cyc := k.now, ch := egCh w, ra := c.bank.areg (egReg w), imm := BitVec.ofNat 64 imm
                      beats := egBeats op imm, id := h.next, tagCount := Sp.get 0 c.tagD (imm % 256), stalled := excess }
    let k := k.setCtx x { c with recE := some (c.count, egBeats op imm) }
    let k := { k with eq := k.eq ++ [e] }
    let h' : Chan := { h with next := (h.next + 1) % 2 ^ 32, open_ := h.open_ ++ [h.next]
                              stalls := if excess then min 0xFFFF (h.stalls + 1) else h.stalls }
    s.setCore core (if isTransferOp op then { k with chans := Sp.put k.chans (egCh w) h' } else k)

/-! ### Channels (R247, R253, R344) -/

/-- The watermark has reached v (R253). -/
def reached (wm v : Nat) : Bool := decide ((wm + 2 ^ 32 - v % 2 ^ 32) % 2 ^ 32 < 2 ^ 31)

/-- The arming of one context on a channel is consumed once the watermark has reached it. -/
def Ctx.chiCheck (c : Ctx) (ch wm : Nat) : Ctx :=
  match Sp.find? c.chi ch with
  | some v => if reached wm v then { c with chi := Sp.erase c.chi ch, uip := c.uip ++ [ch] } else c
  | none => c

/-- Every arming on a channel is tested. -/
def Core.chiCheck (k : Core) (ch : Nat) : Core :=
  let wm := (Sp.get {} k.chans ch).watermark
  { k with ctxs := k.ctxs.map (fun e => (e.1, e.2.chiCheck ch wm)) }

/-- A transfer's identifier completes, with or without an error (R247, R248). -/
def Core.closeXfer (k : Core) (ch id : Nat) (err : Bool) : Core :=
  let k := k.closeId ch id
  let k := match err, Sp.find? k.chans ch with
    | true, some h => { k with chans := Sp.put k.chans ch { h with errs := min 0xFFFF (h.errs + 1) } }
    | _, _ => k
  k.chiCheck ch

/-! ### Descriptors (R249, R254, R329) -/

def Xfer.dw (x : Xfer) (i : Nat) : Nat := dwOf x.desc i
/-- The dword that holds the flags, and the flags themselves. -/
def Xfer.flags (x : Xfer) : Nat := x.dw (if x.op = 2 then 2 else 3)
def Xfer.ssp (x : Xfer) : Nat := fld x.flags 1 0
def Xfer.dsp (x : Xfer) : Nat := fld x.flags 3 2
def Xfer.iscope (x : Xfer) : Nat := fld x.flags 6 4
def Xfer.cre (x : Xfer) : Bool := bitOf x.flags 7
def Xfer.phe (x : Xfer) : Bool := bitOf x.flags 16
def Xfer.phdie (x : Xfer) : Bool := bitOf x.flags 17
def Xfer.phn (x : Xfer) : Nat := if x.op = 2 then fld x.flags 25 18 else fld x.flags 31 24
/-- Offset of the completion record. -/
def Xfer.recOff (x : Xfer) : Nat := if x.op = 2 then x.doff + 64 else if x.op = 1 ∨ x.op = 6 then fld (x.dw 3) 63 32 else x.dw 6
def Xfer.badl (x : Xfer) : Nat := x.dw 4
def Xfer.crct (x : Xfer) : Nat := fld (x.dw 5) 63 32
def Xfer.badc (x : Xfer) : Nat := fld (x.dw 5) 31 0
/-- cpn: element size, dimensions minus one, compressed source, counts minus one and strides (R329). -/
def Xfer.esz (x : Xfer) : Nat := 2 ^ fld x.flags 11 10
def Xfer.ndim (x : Xfer) : Nat := fld x.flags 14 12
def Xfer.zsrc (x : Xfer) : Bool := x.op == 2 && bitOf x.flags 15
def Xfer.cnt (x : Xfer) (d : Nat) : Nat := if d = 0 then fld x.flags 37 26 else fld (x.dw (2 + d)) 11 0
def Xfer.sstr (x : Xfer) (d : Nat) : Int := if d = 0 then (x.esz : Int) else toSigned 24 (fld (x.dw (2 + d)) 35 12)
def Xfer.dstr (x : Xfer) (d : Nat) : Int := if d = 0 then toSigned 24 (fld x.flags 61 38) else toSigned 24 (fld (x.dw (2 + d)) 59 36)
/-- The transfer decompresses: cpz, and cpn with ZSRC. -/
def Xfer.unz (x : Xfer) : Bool := x.op == 3 || x.zsrc

/-- Logical bytes (R249, R330). -/
def Xfer.lenOf (x : Xfer) : Nat :=
  if x.op = 2 then x.esz * ((List.range 6).map (fun d => x.cnt d + 1)).foldl (· * ·) 1 else fld (x.dw 2) 39 0

/-- A reserved field, a reserved code, or a field of cpn that must be zero. -/
def Xfer.reserved (x : Xfer) : Bool :=
  decide (x.ssp = 3) || decide (x.dsp = 3) || decide (4 < x.iscope) ||
  (if x.op = 2 then
    decide (fld (x.dw 2) 63 62 ≠ 0) || decide (5 < x.ndim) ||
      (List.range 5).any (fun i =>
        let v := x.dw (3 + i)
        decide (fld v 63 60 ≠ 0) || (decide (x.ndim < i + 1) && decide (v ≠ 0)) || (x.zsrc && decide (fld v 35 12 ≠ 0)))
   else
    decide (fld (x.dw 2) 63 40 ≠ 0) || decide (fld (x.dw 3) 23 18 ≠ 0) || decide (fld (x.dw 3) 15 10 ≠ 0)
      || (3 ≤ x.op && x.op ≤ 5 && decide (x.dw 7 ≠ 0))) ||
  (x.phe && !x.phdie && decide (31 < x.phn))

/-- A misaligned address or stride. The blocks of cpz and cpc are aligned to 16 (R331). -/
def Xfer.misaligned (x : Xfer) : Bool :=
  if x.op = 2 then
    let e : Int := x.esz
    decide (x.dw 1 % x.esz ≠ 0) || (if x.zsrc then decide (x.dw 0 % 16 ≠ 0) else decide (x.dw 0 % x.esz ≠ 0)) ||
      (List.range (x.ndim + 1)).any (fun d => decide (x.dstr d % e ≠ 0) || (!x.zsrc && decide (x.sstr d % e ≠ 0)))
  else
    (3 ≤ x.op && x.op ≤ 5 && decide (x.badl % 4 ≠ 0)) || (x.op == 5 && decide (x.crct % 4 ≠ 0)) ||
      (x.op == 3 && decide (x.dw 0 % 16 ≠ 0)) || (x.op == 4 && decide (x.dw 1 % 16 ≠ 0))

/-- The least and the greatest byte offset of a nest from its base (R330). -/
def nestSpan (strides : List (Int × Nat)) (e : Nat) : Int × Int :=
  strides.foldl (fun a p => let v := p.1 * (p.2 : Int); (a.1 + min 0 v, a.2 + max 0 v)) (0, (e : Int))

def Xfer.srcSpan (x : Xfer) : Int × Int :=
  if x.unz then (0, if x.len = 0 then 0 else 16)
  else if x.op = 2 then nestSpan ((List.range 6).map (fun d => (x.sstr d, x.cnt d))) x.esz
  else (0, (x.len : Int))

def Xfer.dstSpan (x : Xfer) : Int × Int :=
  if x.op = 2 then nestSpan ((List.range 6).map (fun d => (x.dstr d, x.cnt d))) x.esz
  else if x.op = 4 then (0, if x.len = 0 then 0 else 16)
  else (0, (x.len : Int))

/-- The fault of a scratchpad extent [a + lo, a + hi) of a space (R223); a global one is checked piece by piece. -/
def State.spanFault (s : State) (core space a : Nat) (sp : Int × Int) : Option Nat :=
  if space = 0 then none
  else match s.locate core 0 space { va := a, n := 0, align := 1, kind := accRead } with
  | .error t => some t.cause
  | .ok (_, p) =>
    let lo : Int := (p.addr : Int) + sp.1
    let hi : Int := (p.addr : Int) + sp.2
    if lo < 0 ∨ ((s.core p.core).scratchSize : Int) < hi then some cPERMISSION else none

/-- The trap number of a descriptor fault of a copy (R250, R330), or none. Of several, a reserved value comes first, then a misaligned one,
then the source, the destination, the CRC table and the record (DESIGN CHOICE, log entry 115). A CRC table of cpk that runs past the
scratchpad is one of them, with the trap of R223 (DESIGN CHOICE, log entry 114). -/
def State.copyFault (s : State) (x : Xfer) : Option Nat :=
  if x.reserved then some cILLEGAL_MOVE
  else if x.misaligned then some cALIGNMENT
  else match s.spanFault x.core x.ssp (x.dw 0) x.srcSpan with
  | some c => some c
  | none =>
    match s.spanFault x.core x.dsp (x.dw 1) x.dstSpan with
    | some c => some c
    | none =>
      let crct := if x.op = 5 then s.spanFault x.core 1 x.crct (0, ((4 * ((x.len + 4095) / 4096) : Nat) : Int)) else none
      match crct with
      | some c => some c
      | none =>
        if x.cre then
          (if x.recOff % 16 ≠ 0 then some cALIGNMENT else s.spanFault x.core 1 x.recOff (0, 16))
        else none

/-- send and recv: ring, target die, and the offset of the status record (R254). -/
def Xfer.ring (x : Xfer) : Nat := fld (x.dw 1) 9 2
def Xfer.tdie (x : Xfer) : Nat := fld (x.dw 1) 1 0
def Xfer.stso (x : Xfer) : Nat := if x.op = 7 then fld (x.dw 3) 63 32 else x.dw 3
/-- The transfer writes a status record when its offset is good. -/
def Xfer.sre (x : Xfer) : Bool := x.op == 8 || bitOf (x.dw 3) 7

/-- The trap number of a descriptor fault of send or recv (R255), or none. The status offset is checked whatever SRE holds. -/
def State.tokenFault (s : State) (x : Xfer) : Option Nat :=
  let n := x.dw 2
  let size := (s.core x.core).scratchSize
  if fld (x.dw 1) 63 10 ≠ 0 ∨ n < 64 ∨ 4096 < n ∨ n % 64 ≠ 0 ∨
      (if x.op = 7 then fld (x.dw 3) 31 8 ≠ 0 ∨ fld (x.dw 3) 3 0 ≠ 0 ∨ 4 < fld (x.dw 3) 6 4 else x.tdie ≠ dieOfCore x.core) then
    some cILLEGAL_MOVE
  else if x.dw 0 % 64 ≠ 0 ∨ x.stso % 16 ≠ 0 then some cALIGNMENT
  else if size < x.dw 0 + n ∨ size < x.stso + 16 then some cPERMISSION
  else none

/-! ### Issue (R41, R144, R246 to R258) -/

/-- The phaser a phaser operation names (R256). -/
def phaserOf (core : Nat) (e : EEnt) : Nat :=
  if bitOf e.imm.toNat 7 then diePhaserKey (dieOfCore core) (fld e.ra.toNat 7 0) else cluPhaserKey (cluOfCore core) e.ch
/-- Scope of a phaser's signals and waits (R257). -/
def phaserScope (e : EEnt) : Nat := if bitOf e.imm.toNat 7 then 3 else 2

/-- v of chw and chi (R253). -/
def chv (e : EEnt) : Nat := (e.ra.toNat + e.imm.toNat) % 2 ^ 32

/-- Dwords of the block that an operation reads at issue, as its context's writes leave them (R245). -/
def State.issueDws (s : State) (core : Nat) (e : EEnt) (n : Nat) : List Dw := (s.viewOf core e.ctx).scratchDws core e.ra.toNat n

/-- ISCOPE of the block a copy or send reads at issue. -/
def State.issueScope (s : State) (core : Nat) (e : EEnt) : Nat := fld (dwOf (s.issueDws core e 4) (if e.op = 2 then 2 else 3)) 6 4

/-- The operation is discarded when it reaches the head, since its context has halted (R144). -/
def State.engDiscard (s : State) (core : Nat) (e : EEnt) : Bool :=
  (s.ctx core e.ctx).phase == .ended && (e.op == 9 || e.op == 10 || egPhaser e.op)

/-- The lenient-mode copy at the head must wait for its channel's occupancy (R246). -/
def Core.overOccupied (k : Core) (e : EEnt) : Bool :=
  isTransferOp e.op && decide (16 ≤ (Sp.get {} k.chans e.ch).open_.idxOf e.id)

/-- Some other condition holds the head: a watermark, or a phaser (R253, R257, R338), or a promote-acquire of its context that still waits
(R281; DEDUCED, log entry 123). -/
def State.engHeld (s : State) (core : Nat) (e : EEnt) : Bool :=
  if (s.core core).promises e.ctx then true
  else if e.op = 9 then !(reached (Sp.get {} (s.core core).chans e.ch).watermark (chv e))
  else if e.op = 15 then s.phwHeld (phaserOf core e) core e.ctx
  else if e.op = 12 ∨ e.op = 13 ∨ e.op = 14 then s.signalHeld (phaserOf core e) core e.ctx
  else false

/-- A phaser operation is refused: PHASER_OVERRUN with nothing changed (R257, R338). -/
def State.phaserRefused (s : State) (core : Nat) (e : EEnt) : Bool :=
  let key := phaserOf core e
  if e.op = 12 then ((s.phaser key).member? core e.ctx).isNone
  else if e.op = 13 then s.signalRefused key core e.ctx 0
  else if e.op = 14 then s.signalRefused key core e.ctx (fld e.ra.toNat 47 16)
  else e.op == 15 && s.waitRefused key core e.ctx

/-- The release that an operation makes when it issues: a signal's, or that of a transfer (R250, R257). A phd of a wait-only member signals
nothing (R342). -/
def State.engScope (s : State) (core : Nat) (e : EEnt) : Option Nat :=
  if 12 ≤ e.op ∧ e.op ≤ 14 then
    (if s.phaserRefused core e || (e.op == 12 && !(s.departSignals (phaserOf core e) core e.ctx)) then none else some (phaserScope e))
  else if 1 ≤ e.op ∧ e.op ≤ 7 then (let sc := s.issueScope core e; if sc ≤ 4 then some sc else none)
  else none

/-- That release finds the promotion log full (R279). -/
def State.engFull (s : State) (core : Nat) (e : EEnt) : Bool :=
  match s.engScope core e with
  | some sc => (s.core core).logFull && decide (sc < 3)
  | none => false

/-- Every context of the core group has halted (R143, R144). -/
def Core.allHalted (k : Core) : Bool := k.ctxs.all (fun c => c.2.phase == .off || c.2.phase == .ended)

/-- A transfer comes into being with its identifier; a descriptor fault, and a copy of no bytes, leave nothing to move. -/
def State.newXfer (s : State) (core : Nat) (e : EEnt) : State :=
  let k := s.core core
  let l := (k.launch.map s.launch).getD {}
  let x : Xfer := { core := core, ctx := e.ctx, launch := k.launch.getD 0, ch := e.ch, id := e.id, op := e.op, owner := l.owner
                    root := l.root, priv := (k.ctx e.ctx).priv, desc := s.issueDws core e (egBlock e.op / 8)
                    doff := e.ra.toNat, tag := e.imm.toNat % 256, tagCount := e.tagCount }
  let x :=
    if e.op = 7 ∨ e.op = 8 then
      let x := { x with len := x.dw 2 }
      let size := k.scratchSize
      let x := { x with noRecord := !x.sre || decide (x.stso % 16 ≠ 0) || decide (size < x.stso + 16) }
      match s.tokenFault x with
      | some n => { x with phase := .written, fault := n, status := 0x100 + n }
      | none => if e.op = 8 ∧ k.allHalted then { x with phase := .written, status := 3 } else x
    else
      let x := { x with len := x.lenOf }
      let x := { x with noRecord := !x.cre || !(s.stsOk core x.recOff) }
      let key := if x.phdie then diePhaserKey (dieOfCore core) x.phn else cluPhaserKey (cluOfCore core) (x.phn % 32)
      let f := s.phaser key
      let x := if x.phe ∧ (x.phdie ∨ x.phn ≤ 31) ∧ !f.members.isEmpty then { x with bind := some (key, f.phase) } else x
      match s.copyFault x with
      | some n => { x with fault := n, phase := if e.op = 6 then .queued else .written }
      | none => if x.len = 0 ∧ e.op ≠ 6 then { x with phase := .written } else x
  { s with xfers := Sp.put s.xfers s.nextXfer x, nextXfer := s.nextXfer + 1 }

/-- What an engine-slot operation does when it issues. -/
def State.engAct (s : State) (core : Nat) (e : EEnt) : State :=
  let key := phaserOf core e
  let l := ((s.core core).launch.map s.launch).getD {}
  if s.phaserRefused core e then s.raiseOverrun core e.ctx
  else
    let s := match s.engScope core e with
      | some sc => s.release core e.ctx sc none
      | none => s
    match e.op with
    | 9 => s.acquire core (fld e.ra.toNat 34 32)
    | 10 =>
      (s.modCtx core e.ctx (fun c => { c with chi := Sp.put c.chi e.ch (chv e) })).modCore core (fun k => k.chiCheck e.ch)
    | 11 => s.phrAct key core e.ctx (e.imm.toNat % 4)
    | 12 => s.phdAct key core e.ctx
    | 13 => s.signalAct key core e.ctx 0
    | 14 => s.signalAct key core e.ctx (fld e.ra.toNat 47 16)
    | 15 => (s.phwAct key core e.ctx).acquire core (phaserScope e)
    | 18 => s.ckpAct core l.owner l.root e.imm.toNat (s.issueDws core e 4)
    | op =>
      if op = 16 ∨ op = 17 then
        let cmd : EncCmd := { core := core, ctx := e.ctx, update := op == 17, block := s.issueDws core e 8, since := s.time }
        s.modClu (cluOfCore core) (fun c => { c with enc := c.enc ++ [cmd] })
      else if isTransferOp op then s.newXfer core e
      else s

/-- Contexts whose bundle waits for the engine queue go on once it has issued enough (R40). -/
def Core.wakeE (k : Core) : Core :=
  { k with ctxs := k.ctxs.map (fun c => if c.2.needE ≤ k.eIss then (c.1, { c.2 with needE := 0 }) else c) }

/-- Nops at the head of the engine queue leave it. -/
def Core.popNopsE (k : Core) : Core :=
  let n := (k.eq.takeWhile (fun e => e.op == 0)).length
  if n = 0 then k else { k with eq := k.eq.drop n, eIss := k.eIss + n }.wakeE

/-- The head leaves the engine queue, which it holds for its declared beats (R41); contexts that wait for it go on (R40). -/
def Core.popEng (k : Core) (w beats : Nat) : Core :=
  { k with eq := k.eq.drop 1, eIss := k.eIss + 1, efree := w + 2 * beats }.popNopsE.wakeE

/-- The last of the core's own windows at or before x (R43). -/
def Core.windowDown (k : Core) (x : Nat) : Nat := x - (x + k.logical) % 2

/-- The window at which the head of the engine queue may issue (R41). -/
def Core.engWindow (k : Core) : Option Nat := (k.eq.find? (fun e => e.op != 0)).map (fun e => k.windowUp (max k.efree e.cyc))

/-- The head issues at its window, or is discarded. -/
def State.engGo (s : State) (core w : Nat) (e : EEnt) : State :=
  let s := s.modCore core (fun k => k.reach w)
  let s := if s.engDiscard core e then s else s.engAct core e
  s.modCore core (fun k => k.popEng (max w (k.windowDown k.now)) e.beats)

/-- The head of the engine queue, when it has come to its window and its core is not frozen. -/
def State.engHead (s : State) (core : Nat) : Option (Nat × EEnt) :=
  let k := (s.core core).popNopsE
  if k.frozen.isSome then none
  else match k.engWindow, k.eq with
  | some w, e :: _ => if k.windowOpen w then some (w, e) else none
  | _, _ => none

/-- The head issues once nothing holds it; a release below DEV that finds the promotion log full freezes the core (R279). -/
def State.engTry (s : State) (core w : Nat) (e : EEnt) : State :=
  let s := s.modCore core Core.popNopsE
  if s.engDiscard core e then s.engGo core w e
  else if (s.core core).overOccupied e || s.engHeld core e then s
  else if s.engFull core e then s.freeze core .logFull
  else s.engGo core w e

/-- A queued engine-slot operation issues (R41), unless something holds it (R246, R253, R257, R338). -/
def State.engIssue (s : State) (core : Nat) : State :=
  match s.engHead core with
  | none => if (s.core core).frozen.isSome then s else s.modCore core Core.popNopsE
  | some (w, e) => s.engTry core w e

/-- A lenient-mode copy that waited for its channel's occupancy issues (R246). -/
def State.occupancyFall (s : State) (core : Nat) : State :=
  match s.engHead core with
  | none => s
  | some (w, e) => if e.stalled then s.engTry core w e else s

end Sys2Proof.Machine
end

