-- ==== Sys2Proof/Machine/Copy.lean ====
section
/-! DEFINITION. Transfers of the copy engines: pieces, units, chunks, nests, blocks, bad chunks, completion, and the rings of
send and recv (R322 to R334, R346 to R348, R251, R254, R255). -/

namespace Sys2Proof.Machine

/-- A byte on its way, and whether it carries a poison mark (R326). -/
abbrev MByte := Byte × Bool

/-! ### Places of a transfer's bytes (R324) -/

/-- A transfer translates with the OWNER, PTROOT and privilege of its context's launch (R400). -/
def Xfer.agent (x : Xfer) : Agent := { core := none, owner := x.owner, root := x.root, priv := x.priv }

/-- The place of the byte at address `va` of a space, with the bytes from it that lie in the same page. A scratchpad address is
an offset from the base `a` whose extent has been checked. On a stack that is not ready the place is awaited, with cause 0 (R438). -/
def State.xferAt (s : State) (x : Xfer) (space a : Nat) (off : Int) (k : AccKind) : Except XFault (State × Piece) :=
  if space = 0 then
    let va := wrapInt 64 ((a : Int) + off)
    match s.translate x.agent k va with
    | .error f => .error f
    | .ok (s, t) =>
      if s.stackReady t.pa then .ok (s, { va := va, n := t.size - va % t.size, space := 0, addr := t.pa, entry := t.entry, ad := t.ad })
      else .error ⟨0, 7, 0⟩
  else
    let core := if space = 1 then x.core else (s.peerCore x.core (a / 2 ^ 24)).getD x.core
    let o : Int := ((a % 2 ^ 20 : Nat) : Int) + off
    let size := (s.core core).scratchSize
    if o < 0 ∨ (size : Int) ≤ o then .error ⟨cPERMISSION, 7, 0⟩
    else .ok (s, { va := o.toNat, n := size - o.toNat, space := space, core := core, addr := o.toNat })

/-- A byte as a transfer reads it: a scratchpad's, or global memory's at its home (R265, R276). -/
def State.xferByte (s : State) (p : Piece) (i : Nat) : MByte :=
  let a := p.addr + i
  if p.space ≠ 0 then (s.scratchByte p.core a, (s.core p.core).scratchPoison.contains (a / 32))
  else (s.agentByte p.entry (s.freeCtr + i) a, s.agentMarked p.entry a)

/-- The n bytes from a place on, and the state that has used their free values. -/
def State.xferBytes (s : State) (p : Piece) (n : Nat) : State × List MByte :=
  (if p.space = 0 ∧ s.openByte p.entry p.addr then { s with freeCtr := s.freeCtr + n } else s, (List.range n).map (s.xferByte p))

/-- A run of bytes from one address of a space, at most `fuel` pages: the bytes before the first fault, and the fault. -/
def State.xferRead (x : Xfer) (space a : Nat) : Nat → Nat → Nat → State → State × List MByte × Option XFault
  | 0, _, _, s => (s, [], none)
  | fuel + 1, off, n, s =>
    if n = 0 then (s, [], none)
    else match s.xferAt x space a off accRead with
    | .error f => (s, [], some f)
    | .ok (s, p) =>
      let m := min n p.n
      let b := s.xferBytes p m
      let t := State.xferRead x space a fuel (off + m) (n - m) b.1
      (t.1, b.2 ++ t.2.1, t.2.2)

/-- The places of a run of bytes to be written. -/
def State.xferPlaces (x : Xfer) (space a : Nat) : Nat → Nat → Nat → State → Except XFault (State × List Piece)
  | 0, _, _, s => .ok (s, [])
  | fuel + 1, off, n, s =>
    if n = 0 then .ok (s, [])
    else match s.xferAt x space a off accWrite with
    | .error f => .error f
    | .ok (s, p) =>
      let m := min n p.n
      match State.xferPlaces x space a fuel (off + m) (n - m) s with
      | .error f => .error f
      | .ok (s, t) => .ok (s, { p with n := m } :: t)

/-- A run of logical bytes of a plain copy, piece by piece, each checked on its source and then on its destination (R324): the bytes and
the places of the pieces before the first fault, and the fault. -/
def State.xferPieces (x : Xfer) : Nat → Nat → Nat → State → State × List MByte × List Piece × Option XFault
  | 0, _, _, s => (s, [], [], none)
  | fuel + 1, off, n, s =>
    if n = 0 then (s, [], [], none)
    else match s.xferAt x x.ssp (x.dw 0) off accRead with
    | .error f => (s, [], [], some f)
    | .ok (s, p) =>
      match s.xferAt x x.dsp (x.dw 1) off accWrite with
      | .error f => (s, [], [], some f)
      | .ok (s, q) =>
        let m := min n (min p.n q.n)
        let b := s.xferBytes p m
        let t := State.xferPieces x fuel (off + m) (n - m) b.1
        (t.1, b.2 ++ t.2.1, { q with n := m } :: t.2.2.1, t.2.2.2)

/-- Places that follow one another in one page are one. -/
def joinPlaces : List Piece → List Piece
  | [] => []
  | p :: t =>
    match joinPlaces t with
    | [] => [p]
    | q :: r =>
      if p.space = q.space ∧ p.core = q.core ∧ p.entry = q.entry ∧ p.ad = q.ad ∧ p.addr + p.n = q.addr then
        { p with n := p.n + q.n } :: r
      else p :: q :: r

/-! ### Units (R323, R340) -/

/-- A list cut where addresses, from `a` on, reach multiples of 64. -/
def cutUnits {α : Type} : Nat → Nat → List α → List (Nat × List α)
  | 0, _, _ => []
  | fuel + 1, a, l => if l.isEmpty then [] else (a, l.take (64 - a % 64)) :: cutUnits fuel (a + (64 - a % 64)) (l.drop (64 - a % 64))

/-- Bytes that a transfer has written, or that count as arrived, reach its phaser (R340). -/
def State.xferArrive (s : State) (x : Xfer) (n : Nat) : State :=
  match x.bind with
  | some b => s.decrement b.1 n b.2
  | none => s

/-- The granules of marked bytes from address a on. -/
def markedGranules (a : Nat) (bs : List MByte) : List Nat :=
  (((bs.zip (List.range bs.length)).filter (fun e => e.1.2)).map (fun e => (a + e.2) / 32)).eraseDups

/-- One unit is written at its place: values, keys and poison marks (R326, R399, R411). -/
def State.unitWrite (s : State) (p : Piece) (a : Nat) (bs : List MByte) : State :=
  let cs := cellsAt a (bs.map (·.1))
  let gs := markedGranules a bs
  if p.space ≠ 0 then
    let s := s.scratchWrite p.core cs
    if gs.isEmpty then s else s.modCore p.core (fun k => k.onTwin (fun k => { k with scratchPoison := gs.foldl addMark k.scratchPoison }))
  else
    let s := s.agentStore p.entry cs
    if p.isReg then s else gs.foldl (State.agentMark p.entry) s

/-- Bytes are written from a place on, unit by unit, each unit one arrival of `count` bytes at the phaser. -/
def State.placeWrite (s : State) (x : Xfer) (p : Piece) (bs : List MByte) : State :=
  (cutUnits (bs.length + 1) p.addr bs).foldl (fun a u => (a.unitWrite p u.1 u.2).xferArrive x u.2.length) s

/-- Bytes are written over several places in order. -/
def State.placesWrite (s : State) (x : Xfer) : List Piece → List MByte → State
  | [], _ => s
  | p :: t, bs => (s.placeWrite x p (bs.take p.n)).placesWrite x t (bs.drop p.n)

/-! ### The running transfer -/

/-- The bytes that stand in the aligned 8-byte piece u of global memory at the end of writes, last place first: what comes before them,
and them (R323). -/
def cutTail (u : Nat) : List (Piece × List MByte) → List (Piece × List MByte) × List TailPart
  | [] => ([], [])
  | w :: t =>
    let p := w.1
    if p.space ≠ 0 ∨ (p.addr + p.n - 1) / 8 ≠ u then (w :: t, [])
    else if p.addr / 8 = u then
      let r := cutTail u t
      (r.1, r.2 ++ [⟨p.addr, p.entry, p.ad, w.2⟩])
    else
      let m := 8 * u - p.addr
      (({ p with n := m }, w.2.take m) :: t, [⟨8 * u, p.entry, p.ad, w.2.drop m⟩])

/-- The writes of a chunk that is not the last, up to an aligned piece that the next chunk may go on with, and what is left of it. -/
def holdTail (ws : List (Piece × List MByte)) : List (Piece × List MByte) × List TailPart :=
  match ws.reverse with
  | [] => ([], [])
  | w :: t =>
    let e := w.1.addr + w.1.n
    if w.1.space ≠ 0 ∨ e % 8 = 0 then (ws, [])
    else let r := cutTail (e / 8) (w :: t); (r.1.reverse, r.2)

/-- One held part is written; its leaf's A and D are set again, should the streamer have cleared D since (R408). -/
def State.writePart (x : Xfer) (s : State) (t : TailPart) : State :=
  (s.adAgain t.ad t.entry).placeWrite x { va := 0, n := t.bytes.length, space := 0, addr := t.addr, entry := t.entry, ad := t.ad } t.bytes

/-- What a transfer had still to write is written. -/
def State.writeTail (s : State) (x : Xfer) : State × Xfer := (x.tail.foldl (State.writePart x) s, { x with tail := [] })

/-- The bytes of places, place by place. -/
def splitPlaces : List Piece → List MByte → List (Piece × List MByte)
  | [], _ => []
  | p :: t, bs => (p, bs.take p.n) :: splitPlaces t (bs.drop p.n)

/-- A chunk is written, unless it is the last but for an aligned piece of global memory that the next chunk may go on with: each such piece
is written whole (R323). -/
def State.chunkWrite (s : State) (x : Xfer) (qs : List Piece) (bs : List MByte) : State × Xfer :=
  let r := s.writeTail x
  let ws := splitPlaces qs bs
  let h := if x.len ≤ x.pos / 4096 * 4096 + 4096 then (ws, []) else holdTail ws
  (h.1.foldl (fun a w => a.placeWrite x w.1 w.2) r.1, { r.2 with tail := h.2 })

/-- A transfer has written its last byte, or goes on at `pos`. -/
def Xfer.goOn (x : Xfer) (pos : Nat) : Xfer := { x with pos := pos, phase := if x.len ≤ pos then .written else .running }
/-- A transfer stops on a fault at logical byte `foff` (R324). -/
def Xfer.stop (x : Xfer) (f : XFault) (foff : Nat) : Xfer := { x with fault := f.cause, foff := foff, phase := .written }

/-- End of the chunk that holds the next logical byte. -/
def Xfer.chunkEnd (x : Xfer) : Nat := min x.len (x.pos / 4096 * 4096 + 4096)

/-- A copied transfer, with its state. -/
def State.putXfer (s : State) (tid : Nat) (x : Xfer) : State := s.setXfer tid x

/-- Logical bytes of the next step of a plain copy: to the end of its chunk, and on to the end of the aligned unit of the destination that
the chunk ends in, so that no unit is written in two steps (R323). -/
def Xfer.stepLen (x : Xfer) : Nat :=
  let d := x.dw 1 + x.pos
  min (roundUp (d + (x.chunkEnd - x.pos)) 64 - d) (x.len - x.pos)

/-- A transfer stops on a fault: the bytes before it are written (R324). -/
def State.stopAt (s : State) (tid : Nat) (x : Xfer) (f : XFault) (foff : Nat) : State :=
  let r := s.writeTail x
  r.1.putXfer tid (r.2.stop f foff)

/-- The transfer stands where a step has left it that came to a stack which is not ready (R438): no fault, and bytes left. -/
def Xfer.awaits (x : Xfer) : Bool := x.phase == .written && x.fault == 0 && decide (x.pos < x.len)

/-- cpy and cpe: the next pieces (R324). -/
def State.pieceCopy (s : State) (tid : Nat) (x : Xfer) : State :=
  let r := State.xferPieces x 8 x.pos x.stepLen s
  let s := r.1.placesWrite x (joinPlaces r.2.2.1) r.2.1
  s.putXfer tid (match r.2.2.2 with
    | some f => x.stop f (x.pos + r.2.1.length)
    | none => x.goOn (x.pos + x.stepLen))

/-- A bad chunk enters the list of the transfer (R327); cpn has no list. -/
def State.badChunk (s : State) (x : Xfer) (chunk : Nat) : State :=
  if x.op = 2 ∨ x.badc ≤ x.bad then s
  else match s.translate x.agent accWrite ((x.badl + 4 * x.bad) % 2 ^ 64) with
  | .error _ => s
  | .ok (s, t) => s.agentStore t.entry (cellsAt t.pa (bytesOf 4 chunk))

/-- A checked chunk is written: its data, or zeros and an entry in the list when it is bad. -/
def State.chunkOut (s : State) (x : Xfer) (qs : List Piece) (data : Option (List Byte)) : State × Xfer :=
  let n := x.chunkEnd - x.pos
  match data with
  | some bs => s.chunkWrite x qs (bs.map (fun b => (b, false)))
  | none =>
    let r := s.chunkWrite x qs (List.replicate n (0, false))
    (r.1.badChunk x (x.pos / 4096), { r.2 with bad := x.bad + 1 })

/-- cpk: the next chunk, checked whole (R324, R327, R328). -/
def State.chunkCheck (s : State) (tid : Nat) (x : Xfer) : State :=
  let r := State.xferPieces x 8 x.pos (x.chunkEnd - x.pos) s
  match r.2.2.2 with
  | some f => r.1.stopAt tid x f x.pos
  | none =>
    let s := r.1
    let data := r.2.1.map (·.1)
    let good := !(r.2.1.any (·.2)) && crc32c data == s.scratchNat x.core (x.crct + 4 * (x.pos / 4096)) 4
    let o := s.chunkOut x (joinPlaces r.2.2.1) (if good then some data else none)
    o.1.putXfer tid (o.2.goOn x.chunkEnd)

/-! ### Compressed sources (R331 to R333) -/

/-- The next block of a compressed source: the decompressed bytes of the chunk, or none when it is bad, and the transfer with the
place of the block after it. -/
def State.nextBlock (s : State) (x : Xfer) : Except XFault (State × Xfer × Option (List Byte)) :=
  let n := x.chunkEnd - x.pos
  if x.broken then .ok (s, x, none)
  else match State.xferRead x x.ssp (x.dw 0) 8 x.srcOff 16 s with
  | (_, _, some f) => .error f
  | (s, hb, none) =>
    let h := natOfBytes (hb.map (·.1))
    if lzHeaderBad h n (x.chunkEnd == x.len) then .ok (s, { x with broken := true }, none)
    else match State.xferRead x x.ssp (x.dw 0) 8 (x.srcOff + 16) (lzClen h) s with
    | (_, _, some f) => .error f
    | (s, body, none) =>
      let x := { x with srcOff := x.srcOff + lzBytes h }
      .ok (s, x, if hb.any (·.2) || body.any (·.2) then none else lzDecode h (body.map (·.1)))

/-- cpz: the next chunk. (DEDUCED, log entry 63.) -/
def State.chunkExpand (s : State) (tid : Nat) (x : Xfer) : State :=
  match s.nextBlock x with
  | .error f => s.stopAt tid x f x.pos
  | .ok (s, y, data) =>
    match State.xferPlaces x x.dsp (x.dw 1) 8 x.pos (x.chunkEnd - x.pos) s with
    | .error f => s.stopAt tid x f x.pos
    | .ok (s, qs) =>
      let r := s.chunkOut y qs data
      r.1.putXfer tid (r.2.goOn x.chunkEnd)

/-- cpc: the next chunk becomes a block (R334). The phaser counts its logical bytes (R325). A fault of the source stops it at the faulting
piece's first byte, and no block is written of the bytes before it in the chunk, which count as arrived all the same (DESIGN CHOICE, log
entry 89). -/
def State.chunkCompress (s : State) (tid : Nat) (x : Xfer) : State :=
  let n := x.chunkEnd - x.pos
  match State.xferRead x x.ssp (x.dw 0) 8 x.pos n s with
  | (s, bs, some f) => (s.xferArrive x bs.length).putXfer tid (x.stop f (x.pos + bs.length))
  | (s, bs, none) =>
    let out := lzEncode (bs.map (·.1)) (x.chunkEnd == x.len)
    match State.xferPlaces x x.dsp (x.dw 1) 8 x.dstOff out.length s with
    | .error f => s.putXfer tid (x.stop f x.pos)
    | .ok (s, qs) =>
      let marked := bs.any (·.2)
      let s := s.placesWrite { x with bind := none } qs (out.map (fun b => (b, marked)))
      (s.xferArrive x n).putXfer tid { x.goOn x.chunkEnd with dstOff := x.dstOff + out.length }

/-! ### Nested copies (R329, R330) -/

/-- The offset of logical element g under the strides of a nest; index 0 runs fastest. -/
def nestOff (cnt : Nat → Nat) (str : Nat → Int) : Nat → Nat → Nat → Int
  | 0, _, _ => 0
  | fuel + 1, d, g => str d * ((g % (cnt d + 1) : Nat) : Int) + nestOff cnt str fuel (d + 1) (g / (cnt d + 1))

def Xfer.srcElem (x : Xfer) (g : Nat) : Int := nestOff x.cnt x.sstr 6 0 g
def Xfer.dstElem (x : Xfer) (g : Nat) : Int := nestOff x.cnt x.dstr 6 0 g

/-- Elements from element g on, each checked on its source and then on its destination: the bytes and the places of those before the first
fault, and the fault with its element's logical offset. -/
def State.nestPieces (x : Xfer) : Nat → Nat → State → State × List MByte × List Piece × Option (XFault × Nat)
  | 0, _, s => (s, [], [], none)
  | fuel + 1, g, s =>
    match s.xferAt x x.ssp (x.dw 0) (x.srcElem g) accRead with
    | .error f => (s, [], [], some (f, g * x.esz))
    | .ok (s, p) =>
      match s.xferAt x x.dsp (x.dw 1) (x.dstElem g) accWrite with
      | .error f => (s, [], [], some (f, g * x.esz))
      | .ok (s, q) =>
        let b := s.xferBytes p x.esz
        let t := State.nestPieces x fuel (g + 1) b.1
        (t.1, b.2 ++ t.2.1, { q with n := x.esz } :: t.2.2.1, t.2.2.2)

/-- The places of the elements of a chunk. -/
def State.nestPlaces (x : Xfer) : Nat → Nat → State → Except XFault (State × List Piece)
  | 0, _, s => .ok (s, [])
  | fuel + 1, g, s =>
    match s.xferAt x x.dsp (x.dw 1) (x.dstElem g) accWrite with
    | .error f => .error f
    | .ok (s, q) =>
      match State.nestPlaces x fuel (g + 1) s with
      | .error f => .error f
      | .ok (s, qs) => .ok (s, { q with n := x.esz } :: qs)

/-- cpn: the next chunk of logical data. -/
def State.chunkNest (s : State) (tid : Nat) (x : Xfer) : State :=
  let g := x.pos / x.esz
  let n := (x.chunkEnd - x.pos) / x.esz
  if x.zsrc then
    match s.nextBlock x with
    | .error f => s.stopAt tid x f x.pos
    | .ok (s, y, data) =>
      match State.nestPlaces x n g s with
      | .error f => s.stopAt tid x f x.pos
      | .ok (s, qs) =>
        let r := s.chunkOut y qs data
        r.1.putXfer tid (r.2.goOn x.chunkEnd)
  else
    let r := State.nestPieces x n g s
    let o := r.1.chunkWrite x r.2.2.1 r.2.1
    match r.2.2.2 with
    | some f => o.1.stopAt tid o.2 f.1 f.2
    | none => o.1.putXfer tid (o.2.goOn x.chunkEnd)

/-! ### Steps of a transfer (R247, R324, R335) -/

/-- Every earlier transfer of the channel has started (R247). -/
def State.canStart (s : State) (tid : Nat) (x : Xfer) : Bool :=
  s.xfers.all (fun e => decide (tid ≤ e.1) || e.2.core != x.core || e.2.ch != x.ch || e.2.launch != x.launch || e.2.phase != .queued)

/-- cpeStart (R335): its tag's condition holds, and the transfer is an ordinary cpy from here on. One with a descriptor fault or with LEN 0
holds its channel till then, and completes (DESIGN CHOICE, log entry 116). -/
def State.cpeStart (s : State) (tid : Nat) : State :=
  match Sp.find? s.xfers tid with
  | none => s
  | some x =>
    if x.op = 6 ∧ x.phase = .queued ∧ s.canStart tid x ∧ x.tagCount ≤ Sp.get 0 (s.ctx x.core x.ctx).tagF x.tag then
      s.putXfer tid { x with phase := if x.fault ≠ 0 ∨ x.len = 0 then .written else .running }
    else s

/-- The next piece or chunk of a transfer by its operation (R324). -/
def State.copyStep (s : State) (tid : Nat) (x : Xfer) : State :=
  match x.op with
  | 2 => s.chunkNest tid x
  | 3 => s.chunkExpand tid x
  | 4 => s.chunkCompress tid x
  | 5 => s.chunkCheck tid x
  | _ => s.pieceCopy tid x

/-- The place of the transfer's next entry in its list of bad chunks is on a stack that is not ready, or its walk comes to one (R327,
R438). -/
def State.badAwaits (s : State) (x : Xfer) : Bool :=
  if x.op = 2 ∨ x.badc ≤ x.bad then false
  else match s.translate x.agent accWrite ((x.badl + 4 * x.bad) % 2 ^ 64) with
  | .error f => f.waits
  | .ok (s, t) => !(s.stackReady t.pa)

/-- One piece or chunk of a transfer (R324). A step that comes to a stack which is not ready waits for it (R438). -/
def State.copyPiece (s : State) (tid : Nat) : State :=
  match Sp.find? s.xfers tid with
  | none => s
  | some x =>
    if x.phase = .running ∨ (x.phase = .queued ∧ 1 ≤ x.op ∧ x.op ≤ 5 ∧ s.canStart tid x) then
      let t := s.copyStep tid x
      match Sp.find? t.xfers tid with
      | some y => if y.awaits then s else if y.bad ≠ x.bad ∧ s.badAwaits x then s else t
      | none => t
    else s

/-- 48-byte rows that an operation of the array reads: the core whose scratchpad holds them, their offset, and their bytes in all. -/
structure RowSpan where
  core : Nat
  off : Nat
  len : Nat
deriving DecidableEq, Repr

/-- A running cpe has written part of a row (R335). -/
def State.midRow (s : State) (x : Xfer) (p : RowSpan) : Bool :=
  x.op == 6 && x.phase == .running && x.dsp != 0
    && (let target := if x.dsp = 1 then x.core else (s.peerCore x.core (x.dw 1 / 2 ^ 24)).getD x.core
        let f := x.dw 1 % 2 ^ 20 + x.pos
        target == p.core && decide (p.off < f) && decide (f < p.off + p.len) && (f - p.off) % 48 != 0)

/-- The refill goes on until it stands inside no row of any of the spans. -/
def State.rowEnd (ps : List RowSpan) (tid : Nat) : Nat → State → State
  | 0, s => s
  | fuel + 1, s =>
    match Sp.find? s.xfers tid with
    | none => s
    | some x => if ps.any (s.midRow x) then State.rowEnd ps tid fuel (s.copyPiece tid) else s

/-- No refill stands inside a row: an array read comes wholly after its writes to that row (R335). -/
def State.rowsSettle (s : State) (ps : List RowSpan) : State :=
  s.xfers.foldl (fun a e => if e.2.op = 6 then State.rowEnd ps e.1 (e.2.len + 1) a else a) s

/-- The rows that a running operation reads in its current repetition: the panels of a multiplication, the record of a pldef (R204,
R212). -/
def State.rowSpans (s : State) (core : Nat) (r : MRun) : List RowSpan :=
  let panel (a : Nat) : RowSpan := ⟨(s.mtTarget core a).getD core, maOff a, 768 * r.ent.beats⟩
  if r.ent.op = 9 then [⟨core, maOff r.ent.ra.toNat, 48 * r.ent.beats⟩]
  else if mtMul r.ent.op then panel (r.ent.addrA r.rep) :: (if r.ent.op = 5 then [] else [panel (r.ent.addrB r.rep)])
  else []

/-- The same for the beat that comes next. -/
def State.beatSettle (s : State) (core : Nat) : State :=
  match (s.core core).mrun with
  | none => s
  | some r => if r.waits || !((s.core core).windowOpen (s.core core).mwin) then s else s.rowsSettle (s.rowSpans core r)

/-- A beat of the array, on whole rows. -/
def State.arrayBeat (s : State) (core : Nat) : State := (s.beatSettle core).matBeat core

/-- The completion record (R251). -/
def Xfer.record (x : Xfer) : List Byte :=
  let flt := decide (x.fault ≠ 0)
  let foff := if flt then x.foff else x.len
  bytesOf 8 (x.fault % 256 * 2 ^ 34 + (if flt then 2 ^ 33 else 0) + (if x.bad ≠ 0 then 2 ^ 32 else 0) + x.id % 2 ^ 32)
    ++ bytesOf 8 (min x.bad 0xFFFFFF * 2 ^ 40 + foff % 2 ^ 40)

/-- The status record of send and recv (R254, R255). Bytes 0 to 7 of a recv that has taken no message are 0 (DESIGN CHOICE, log entry
117). -/
def Xfer.statusRecord (x : Xfer) : List Byte :=
  bytesOf 4 (if x.op = 7 then x.len else x.msgLen) ++ bytesOf 4 (if x.op = 7 then x.tdie else x.msgDie) ++ bytesOf 4 x.status ++ bytesOf 4 0

/-- A transfer completes (R247, R250, R251, R255, R325). -/
def State.transferDone (s : State) (tid : Nat) : State :=
  match Sp.find? s.xfers tid with
  | none => s
  | some x =>
    if x.phase = .written ∧ s.canStart tid x then
      let token := x.op == 7 || x.op == 8
      let s := if x.fault ≠ 0 ∧ !token then s.xferArrive x (x.len - x.foff) else s
      let s := if x.noRecord then s
        else s.scratchWrite x.core (cellsAt (if token then x.stso else x.recOff) (if token then x.statusRecord else x.record))
      let err := decide (x.fault ≠ 0) || decide (x.bad ≠ 0) || (token && x.status == 2)
      { s with xfers := Sp.erase s.xfers tid }.modCore x.core (fun k => k.closeXfer x.ch x.id err)
    else s

/-! ### Rings (R345 to R348) -/

/-- The control block of ring r of a die (log entry 13). -/
def State.ringAt (s : State) (die r : Nat) : Nat := (s.die die).ringBase.toNat + 64 * r
/-- Dword i of a ring's control block. -/
def State.ringDw (s : State) (b i : Nat) : Nat := s.homeDw (b + 8 * i)
/-- Bytes written at their home by the token and memory-write classes. -/
def State.ringPut (s : State) (a : Nat) (bs : List Byte) : State := s.homeStore (cellsAt a bs)
/-- A 32-bit half of a ring's dword becomes v. -/
def State.ringSet (s : State) (b i : Nat) (hi : Bool) (v : Nat) : State := s.ringPut (b + 8 * i + (if hi then 4 else 0)) (bytesOf 4 v)

/-- The 64-byte header of a slot, or a spill descriptor. -/
def ringHeader (len die st : Nat) : List Byte := bytesOf 4 len ++ bytesOf 4 die ++ bytesOf 1 st ++ List.replicate 55 0

/-- The address of slot k. -/
def State.slotAddr (s : State) (b k : Nat) : Nat := s.ringDw b 0 + 4160 * k

/-- A message at address a: its header and payload, payload bytes with their marks. -/
def State.ringMessage (s : State) (a die : Nat) (bs : List MByte) : State :=
  let s := (s.ringPut a (ringHeader bs.length die 1)).ringPut (a + 64) (bs.map (·.1))
  (markedGranules (a + 64) bs).foldl (State.homeMark · true) s

/-- The spill offset at which an entry of e bytes is placed, and whether it wraps; none when it would pass SPHEAD (R346). -/
def spillAt (head tail len e : Nat) : Option (Nat × Bool) :=
  if tail < head then (if tail + e < head then some (tail, false) else none)
  else if tail + e ≤ len then (if tail + e = head then none else some (tail, false))
  else if e < head then some (0, true) else none

/-- The message is dropped: DROPS rises (R346). -/
def State.ringDrop (s : State) (b : Nat) : State := s.ringSet b 6 false ((s.ringDw b 6 + 1) % 2 ^ 32)

/-- A message of bytes bs from a die arrives at ring r of die d: the state and STATUS (R346, R255). (DEDUCED, log entry 38.) -/
def State.ringAccept (s : State) (d r sdie : Nat) (bs : List MByte) : State × Nat :=
  let b := s.ringAt d r
  let cfg := s.ringDw b 1
  let tail := fld (s.ringDw b 2) 63 32
  let sph := fld (s.ringDw b 5) 31 0
  let spt := fld (s.ringDw b 5) 63 32
  let nslot := fld cfg 7 0 + 1
  if !(bitOf cfg 8) then (s.ringDrop b, 2)
  else if sph = spt ∧ s.homeByte (s.slotAddr b (tail % nslot) + 8) = 0 then
    ((s.ringMessage (s.slotAddr b (tail % nslot)) sdie bs).ringSet b 2 true ((tail + 1) % nslot), 0)
  else
    match spillAt sph spt (s.ringDw b 4) (64 + bs.length) with
    | none => (s.ringDrop b, 2)
    | some (o, wrap) =>
      let spb := s.ringDw b 3
      let s := if wrap ∧ spt + 64 ≤ s.ringDw b 4 then s.ringPut (spb + spt) (ringHeader 0xFFFFFFFF sdie 1) else s
      let s := (s.ringMessage (spb + o) sdie bs).ringSet b 5 true (o + 64 + bs.length)
      (s.ringSet b 6 true ((fld (s.ringDw b 6) 63 32 + 1) % 2 ^ 32), 1)

/-- The stacks of a ring's control block, of its slots and of its spill region are ready (R438). -/
def State.ringReady (s : State) (b : Nat) : Bool :=
  s.regionReady b 64 && (let n := fld (s.ringDw b 1) 7 0 + 1; s.regionReady (s.ringDw b 0) (4160 * n))
    && s.regionReady (s.ringDw b 3) (s.ringDw b 4)

/-- ringPlacement: a sent payload arrives at its ring, or is dropped because the target die is lost (R346, R423). It waits for stacks of the
ring that are not ready (R438). -/
def State.ringPlace (s : State) (tid : Nat) : State :=
  match Sp.find? s.xfers tid with
  | none => s
  | some x =>
    if x.op = 7 ∧ x.phase = .queued ∧ s.canStart tid x ∧ s.ringReady (s.ringAt x.tdie x.ring) then
      let d := s.die x.tdie
      let bs := (s.xferBytes { va := x.dw 0, n := x.len, space := 1, core := x.core, addr := x.dw 0 } x.len).2
      let r := if d.fenced || d.stopped then (s.ringDrop (s.ringAt x.tdie x.ring), 2) else s.ringAccept x.tdie x.ring (dieOfCore x.core) bs
      r.1.putXfer tid { x with phase := .written, status := r.2 }
    else s

/-- What recv takes next (R347): the address of a message and where the ring stands after it. -/
inductive RingNext where
  | slot (a next : Nat)
  | spill (a head : Nat)
  | nothing
deriving DecidableEq, Repr

def State.ringNext (s : State) (b : Nat) : RingNext :=
  let nslot := fld (s.ringDw b 1) 7 0 + 1
  let head := fld (s.ringDw b 2) 31 0 % nslot
  let sph := fld (s.ringDw b 5) 31 0
  let spt := fld (s.ringDw b 5) 63 32
  let len (o : Nat) : Nat := natOfBytes (readSeq s.homeByte (s.ringDw b 3 + o) 4)
  if s.homeByte (s.slotAddr b head + 8) ≠ 0 then .slot (s.slotAddr b head) ((head + 1) % nslot)
  else if sph = spt then .nothing
  else
    let o := if s.ringDw b 4 < sph + 64 ∨ len sph = 0xFFFFFFFF then 0 else sph
    .spill (s.ringDw b 3 + o) (o + 64 + roundUp (len o) 64)

/-- A message is copied to the scratchpad of a recv: payload up to its capacity (R254). -/
def State.takeMessage (s : State) (tid : Nat) (x : Xfer) (a status : Nat) : State :=
  let n := natOfBytes (readSeq s.homeByte a 4)
  let m := min n x.len
  let bs := (List.range m).map (fun i => (s.homeByte (a + 64 + i), s.homeMarked (a + 64 + i)))
  let s := s.placeWrite x { va := x.dw 0, n := m, space := 1, core := x.core, addr := x.dw 0 } bs
  s.putXfer tid { x with phase := .written, status := status, msgDie := natOfBytes (readSeq s.homeByte (a + 4) 4)
                         msgLen := n % 2 ^ 31 + (if x.len < n then 2 ^ 31 else 0) }

/-- recvTake (R347): the ring's next message, or spill entry, is taken and its place freed. -/
def State.recvTake (s : State) (tid : Nat) : State :=
  match Sp.find? s.xfers tid with
  | none => s
  | some x =>
    if x.op = 8 ∧ x.phase = .queued ∧ s.canStart tid x ∧ s.ringReady (s.ringAt x.tdie x.ring) then
      let b := s.ringAt x.tdie x.ring
      match s.ringNext b with
      | .nothing => s
      | .slot a next => ((s.takeMessage tid x a 0).ringPut (a + 8) [0]).ringSet b 2 false next
      | .spill a head => (s.takeMessage tid x a 1).ringSet b 5 false head
    else s

end Sys2Proof.Machine
end

