-- ==== Sys2Proof/Machine/Issue.lean ====
section
/-! DEFINITION. The issue of one bundle of a context: fetch, the checks of R119 and R146 in their order, blocking (R49 to R51),
freezes (R35), and the effects in the order of R31. -/

namespace Sys2Proof.Machine

/-! ### The header (R98) -/

def hdrEW (h : Nat) : Nat := fld h 5 0
def hdrOP (h : Nat) : Nat := fld h 8 6
def hdrOPC (h : Nat) : Bool := bitOf h 9
def hdrAM (h : Nat) : Bool := bitOf h 10
def hdrAE (h : Nat) : Bool := bitOf h 11
def hdrMB (h : Nat) : Bool := bitOf h 12

/-- The immediate of the bundle's slot 7. -/
def bundleImm (b : Bundle) : Nat := (engImm (hdrIPF b.hdr.toNat) b.pool.toNat b.eng.toNat).toNat

/-! ### Triggers by unit -/

/-- The value of the unit's cfg port is illegal for the port triggered (R111). -/
def cfgIllegal (u p cfg : Nat) : Bool :=
  match u with
  | 4 => lsIllegal p cfg
  | 5 => lvIllegal p cfg
  | 6 => atIllegal p cfg
  | 7 => vaIllegal p cfg
  | 8 => vaIllegal p cfg
  | 9 => vfIllegal cfg
  | 10 => vxIllegal p cfg
  | 11 => saIllegal p cfg
  | _ => decide (cfg ≠ 0)

/-- The fault of a CT trigger's operands (R130, R134, R139, R140, R149, R151). -/
def ctFault (c : Ctx) (g : Trig) : Option Nat :=
  let illegal (ok : Bool) : Option Nat := if ok then none else some cILLEGAL_MOVE
  match g.port with
  | 10 => illegal (g.sa.toNat % 4 != 3)
  | 11 => illegal (mloopOk g.ts g.sa g.sb)
  | 13 => illegal (reptOk g.ts)
  | 15 => illegal c.inHandler
  | 17 => illegal (warmOk g.ts g.sa)
  | 18 => sysrFault c.priv g.ts g.sb
  | 19 => syswFault c.priv g.sa g.ts
  | _ => none

/-- A trigger of LS, LV, AT or SA stores under R136: a store of LS or LV. (DEDUCED, log entry 37.) -/
def Trig.stores (g : Trig) : Bool :=
  (g.unit == 4 && 11 ≤ g.port && g.port ≤ 14) || (g.unit == 5 && (g.port == 5 || g.port == 7 || g.port == 9 || g.port == 12))

/-- The fault of a trigger that ranks at R119 step 6. -/
def State.trigFault (s : State) (core x : Nat) (earlier : Nat) (g : Trig) : Option Nat :=
  let c := s.ctx core x
  if cfgIllegal g.unit g.port g.cfg.toNat then some cILLEGAL_MOVE
  else if g.unit = 3 then ctFault c g
  else if g.unit = 11 then s.saOperand core g
  else if g.stores ∧ c.heldFull earlier then some cSCHEDULE_FAULT
  else none

/-- The first fault of R119 step 6, slot by slot; `n` counts the stores of lower slots. -/
def State.slotFaults (s : State) (core x : Nat) : List Move → Nat → Option Trap
  | [], _ => none
  | m :: t, n =>
    let g := trigOfMove (s.ctx core x) m
    let f : Option Nat := if badOverride m then some cILLEGAL_MOVE else if m.isTrig then s.trigFault core x n g else none
    match f with
    | some c => some { cause := c, pos := m.slot }
    | none => State.slotFaults s core x t (if m.isTrig && g.stores then n + 1 else n)

/-- The accesses of a trigger and their space (R223, R229, R231, R242, R244). -/
def State.wantsOf (s : State) (core x : Nat) (g : Trig) : Nat × List Want :=
  let cfg := g.cfg.toNat
  match g.unit with
  | 4 => (mSpace cfg, lsWants g)
  | 5 => (mSpace cfg, lvWants g ((s.ctx core x).bank.mreg (mMreg cfg)))
  | 6 => (mSpace cfg, atWants g)
  | 11 => (1, s.saWants core g)
  | _ => (0, [])

/-- The fault of a trigger's accesses, at the position of its slot (R120, R146: taken before commit; R390); cause 0 is none, but a walk that
waits for a stack (R438). (DEDUCED, log entry 39.) -/
def State.accessFault (s : State) (core x : Nat) (g : Trig) : Option Trap :=
  let w := s.wantsOf core x g
  match State.locateAll core x w.1 w.2 s with
  | .error t => some { t with pos := g.slot }
  | .ok (_, ps) =>
    if g.unit = 6 ∧ ps.any (atNoLink g.port g.cfg.toNat) then
      some { permTrap (if g.port = 19 then accRead else accRmw) g.ts.toNat with pos := g.slot }
    else none

/-- The pieces of a trigger's accesses. -/
def State.piecesOf (s : State) (core x : Nat) (g : Trig) : List Piece :=
  let w := s.wantsOf core x g
  match State.locateAll core x w.1 w.2 s with
  | .error _ => []
  | .ok (_, ps) => ps

/-- The trigger is a release below DEV scope (R266, R279). -/
def Trig.lowRelease (g : Trig) : Bool :=
  let cfg := g.cfg.toNat
  (((g.unit == 4 && 11 ≤ g.port && g.port ≤ 15) || (g.unit == 5 && g.stores) || (g.unit == 6 && g.port != 19)) && ordRel (mOrd cfg))
    && decide (mScope cfg < 3)


/-- The trigger is a store that a rollback loop holds, so that it acts later (R136). -/
def Ctx.actsLater (c : Ctx) (g : Trig) : Bool := g.stores && c.loops.ml.fate != .now

/-- The trigger takes a place in the promotion log in this bundle. -/
def Ctx.logsNow (c : Ctx) (g : Trig) : Bool := g.lowRelease && !(c.actsLater g)

/-- A piece meets a line that a running drain still has to write back (R278). -/
def Core.drainHit (k : Core) (p : Piece) : Bool := p.space == 0 && k.owes (p.addr / 128)

/-- An offset of region 10 is that of XINV (R388, R406). -/
def isXinv (off : Nat) : Bool :=
  match regPlace off with
  | .die _ 0x8B => true
  | _ => false

/-- The writes of XINV that a write of n bytes at a place of region 10 makes, dword by dword: an aligned 4 or 8 bytes of one (R388). -/
def xinvIn (a n : Nat) : Nat :=
  ((List.range ((a % 8 + n + 7) / 8)).filter (fun i =>
    let d := a / 8 * 8 + 8 * i
    let lo := max a d
    let m := min (a + n) (d + 8) - lo
    isXinv (d % 2 ^ 44) && (m == 4 || m == 8) && lo % m == 0)).length

/-- The writes of XINV that a trigger makes: a sysw, or stores or an atomic to its place in region 10 (R406). -/
def trigXinv (g : Trig) (ps : List Piece) : Nat :=
  if g.unit = 3 ∧ g.port = 19 ∧ g.sa = 0x8B then 1
  else if g.stores || (g.unit == 6 && g.port != 19) then (ps.filter Piece.isReg).foldl (fun n p => n + xinvIn p.addr p.n) 0
  else 0

/-- The XINV writes of a bundle's triggers find no room beside the invalidations that are queued (R406). -/
def State.xinvOver (s : State) (core x : Nat) (ts : List Trig) : Bool :=
  let n := (ts.filter (fun g => !((s.ctx core x).actsLater g))).foldl (fun a g => a + trigXinv g (s.piecesOf core x g)) 0
  decide (n ≠ 0) && !s.xinvs.isEmpty && decide (16 < s.xinvs.length + n)

/-- The trigger acts on memory, or is a sysw or a halt: it comes after the acquire of a promote-acquire before it (R266, R281). -/
def Trig.ordered (g : Trig) : Bool := g.unit == 4 || g.unit == 5 || g.unit == 6 || g.unit == 11 || (g.unit == 3 && 19 ≤ g.port)

/-- The freeze that a trigger meets (R35, R278, R281, R438). -/
def State.trigFreeze (s : State) (core x : Nat) (g : Trig) : Option Freeze :=
  let k := s.core core
  let ps := s.piecesOf core x g
  if k.promises x && g.ordered then some .promise
  else if ps.any (fun p => p.space == 0 && !(s.stackReady p.addr)) then some .stackWait
  else if g.stores && ps.any k.drainHit then some .logFull
  else none

/-- What a trigger does, by unit (R31 step 4). `fp` and `bound` are FPFLAGS and BOUND before the bundle. -/
def trigRun (fp : BitVec 5) (bound : Bool) (core x : Nat) (r : State × Fx) (g : Trig) : State × Fx :=
  match g.unit with
  | 0 => sxRun core x g r
  | 1 => sxRun core x g r
  | 2 => smRun core x g r
  | 3 =>
    match g.port with
    | 4 => ctJmp core x g r
    | 5 => ctBr core x g r
    | 6 => ctBnz core x g r
    | 7 => ctBz core x g r
    | 8 => ctCall core x g r
    | 9 => ctRet core x g r
    | 10 => ctLoop core x g r
    | 11 => ctMloop core x g r
    | 12 => ctLbrk core x g r
    | 13 => ctRept core x g r
    | 14 => ctTrap core x g r
    | 15 => ctEret core x g r
    | 16 => ctWait core x g r
    | 17 => ctWarm core x g r
    | 18 => ctSysr fp bound core x g r
    | 19 => ctSysw core x g r
    | _ => ctHalt core x g r
  | 4 => lsRun core x g r
  | 5 => lvRun core x g r
  | 6 => atRun core x g r
  | 7 => vaRun core x g r
  | 8 => vaRun core x g r
  | 9 => vfRun core x g r
  | 10 => vxRun core x g r
  | _ => saRun core x g r

/-! ### Dispatch (R31 step 6, R39, R40, R42, R119 step 7) -/

/-- The context's record of R42 forbids a dispatch now. -/
def tooEarly (r : Option (Nat × Nat)) (count : Nat) : Bool :=
  match r with
  | some (i, n) => decide (count < i + 2 * n)
  | none => false

/-- The faults of R119 steps 1 to 5. The SCHEDULE_FAULT of R135, which R119 does not name, ranks and reports with that of R59
(DESIGN CHOICE, log entry 90). -/
def State.earlyFault (s : State) (core x : Nat) (b : Bundle) : Option Trap :=
  let c := s.ctx core x
  let h := b.hdr.toNat
  match staticFault b with
  | some (.illegalBundle, p) => some { cause := cILLEGAL_BUNDLE, pos := p }
  | some (.illegalMove, p) => some { cause := cILLEGAL_MOVE, pos := p }
  | some (.scheduleFault, p) => some { cause := cSCHEDULE_FAULT, pos := p }
  | none =>
    if mtOp b.mat.toNat ≠ 0 ∧ tooEarly c.recM c.count then some { cause := cSCHEDULE_FAULT, pos := 6 }
    else if egOp b.eng.toNat ≠ 0 ∧ tooEarly c.recE c.count then some { cause := cSCHEDULE_FAULT, pos := 7 }
    else if (hdrOPC h ∧ c.setLen ≠ 0) ∨ c.loops.ml.leFault (hdrLE h) then some { cause := cSCHEDULE_FAULT, pos := 8 }
    else if egOp b.eng.toNat = 18 ∧ !c.priv then some { cause := cPERMISSION, pos := 7 }
    else none

/-- Why a bundle does not take effect: a trap, or a poison that it consumes. -/
inductive Failure where
  | trap (t : Trap)
  | poison (addr : Dw) (pos : Nat)
deriving DecidableEq, Repr

/-- The poisoned address of the first marked address register of the list. -/
def Ctx.regMark (c : Ctx) (l : List Nat) : Option Dw := l.findSome? (fun n => c.bank.mark (0x90 + n))

/-- The faults of R119 step 7, slot 6 first; `rp` is the repeat prefix in force. -/
def State.dispatchFault (s : State) (core x : Nat) (b : Bundle) (rp : Option Rept) : Option Failure :=
  let c := s.ctx core x
  match c.regMark (mtRegs b.mat.toNat) with
  | some a => some (.poison a 6)
  | none =>
    match s.matFault core x b.mat.toNat rp with
    | some t => some (.trap t)
    | none =>
      match c.regMark (egRegs b.eng.toNat) with
      | some a => some (.poison a 7)
      | none => (s.engFault core x b.eng.toNat (bundleImm b)).map .trap

/-- QUEUE_FULL of slot 7 (R246). -/
def State.queueFault (s : State) (core : Nat) (b : Bundle) : Option Trap :=
  if s.engQueueFull core b.eng.toNat then some { cause := cQUEUE_FULL, pos := 7 } else none

/-- The register updates of a repeat prefix that slot 6 uses (R139): plain writes, both increments into one register. They rank as plain moves
of slot 6, so one beats a plain move of its bundle to that register and counts in SCONF (DESIGN CHOICE, log entry 112). -/
def Ctx.reptWrites (c : Ctx) (w : Nat) (rp : Option Rept) : List Flight :=
  match rp with
  | none => []
  | some p =>
    let upd (n : Nat) (inc : Dw) : Flight :=
      { due := c.count + 1, born := c.count, unit := rankPlain, slot := 6, dest := some (BitVec.ofNat 8 (0x90 + n)), latch := false
        val := some (.s (c.bank.areg n + inc)) }
    let r : Dw := BitVec.ofNat 64 p.r
    if mtOp w = 0 then []
    else if mtA w = mtB w then [upd (mtA w) (r * p.sA + r * p.sB)]
    else [upd (mtA w) (r * p.sA), upd (mtB w) (r * p.sB)]

/-- Slots 6 and 7 are dispatched; `am` and `ae` say that the bundle waits for its queue (R40). -/
def State.dispatch (s : State) (core x : Nat) (b : Bundle) (am ae : Bool := false) : State :=
  let c := s.ctx core x
  let ups := c.reptWrites b.mat.toNat c.rept
  let s := s.matDispatch core x b.mat.toNat c.rept am
  let s := s.engDispatch core x b.eng.toNat (bundleImm b) ae
  s.modCtx core x (fun c => ups.foldl Ctx.push c)

/-- The dispatch of a bundle with AM or AE (R40 part 1): registers are read as they stand in the bundle, and results that are due
in it stay in flight until its part 2. -/
def State.dispatchFirst (s : State) (core x : Nat) (b : Bundle) : State :=
  let k0 := s.core core
  let c0 := k0.ctx x
  let h := b.hdr.toNat
  let s1 := s.modCore core (fun k => k.deliver x)
  let ups := (s1.ctx core x).reptWrites b.mat.toNat (s1.ctx core x).rept
  let s2 := s1.dispatch core x b (hdrAM h) (hdrAE h)
  s2.modCore core (fun k =>
    let c := k.ctx x
    { k.setCtx x { c with
        bank := c0.bank, flight := c0.flight ++ ups, shadow := c0.shadow, part2 := true
        needM := if hdrAM h then k.mIss + k.mq.length else 0
        needE := if hdrAE h then k.eIss + k.eq.length else 0 } with
      latches := k0.latches, sconf := k0.sconf, confs := k0.confs })

/-! ### What stands in the way of a bundle -/

/-- The bundle still waits for a queue (R40). -/
def Core.aligning (k : Core) (x : Nat) : Bool := decide (k.mIss < (k.ctx x).needM) || decide (k.eIss < (k.ctx x).needE)

/-- The dispatch would raise a queue's slip above 16 (R39). -/
def Core.slipFull (k : Core) : Bool := decide (16 ≤ k.mq.length) || decide (16 ≤ k.eq.length)

/-- What happens to a bundle at issue. -/
inductive Verdict where
  /-- Nothing: the core has array work to do first. -/
  | hold
  | fail (f : Failure)
  | freeze (f : Freeze)
  | block
  | go
deriving DecidableEq, Repr

/-- The state after delivery and port writes of the bundle, the moves that take place and the triggers. -/
structure Ready where
  s : State
  ms : List Move
  ts : List Trig

/-- Results that are due are delivered, the moves read their sources and guards, the port writes take effect (R31 steps 1 to 3). -/
def State.readyFor (s : State) (core x : Nat) (b : Bundle) : Ready :=
  let s1 := s.modCore core (fun k => k.deliver x)
  let ms := s1.takenMoves core x (hdrIPF b.hdr.toNat) b.pool.toNat 0 b.moves
  let c := (s1.ctx core x).writePorts ms
  { s := s1.setCtx core x c, ms := ms, ts := trigsOf c ms }

/-- Triggers in the order of their slots. -/
def bySlot (ts : List Trig) : List Trig := (List.range 6).filterMap (fun k => ts.find? (fun t => t.slot == k))

/-- The repeat prefix in force for slot 6: that of a rept trigger of the bundle, else the pending one (R139).
(DEDUCED, log entry 33.) -/
def reptOf (c : Ctx) (ts : List Trig) : Option Rept :=
  match ts.find? (fun t => t.unit == 3 && t.port == 13) with
  | some g => some { r := g.ts.toNat, sA := sextDw 32 g.sa, sB := sextDw 32 g.sb }
  | none => c.rept

/-- The releases of the bundle find no room in the promotion log (R279). -/
def Ready.logOver (r : Ready) (core x : Nat) : Bool :=
  let n := (r.ts.filter (r.s.ctx core x).logsNow).length
  decide (n ≠ 0) && decide (64 < (r.s.core core).log.length + n)

/-- The first of the freezes that the triggers, the promotion log and the energy grant impose. -/
def State.firstFreeze (r : Ready) (core x w : Nat) : Option Freeze :=
  match (bySlot r.ts).findSome? (r.s.trigFreeze core x) with
  | some f => some f
  | none =>
    if r.s.xinvOver core x r.ts then some .xinv
    else if r.logOver core x then some .logFull
    else if !(r.s.core core).granted && (r.s.pair (r.s.pairOf core)).holds w then some .grant else none

/-- The rest of the checks, once slots 6 and 7 are no longer awaited (R119 steps 6 and 7, R146). A wait that finds no token blocks the
bundle before these checks (R142; DESIGN CHOICE, log entry 91). -/
def State.verdict (s : State) (core x : Nat) (b : Bundle) : Verdict :=
  let c0 := s.ctx core x
  let r := s.readyFor core x b
  let c := r.s.ctx core x
  if r.ts.any (fun t => t.unit == 3 && t.port == 16) && c.tokens == 0 then .block
  else match r.s.slotFaults core x r.ms 0 with
  | some t => .fail (.trap t)
  | none =>
    match if c0.part2 then none else r.s.dispatchFault core x b (reptOf c r.ts) with
    | some f => .fail f
    | none =>
      match r.s.consumed core x b.moves r.ms with
      | some a => .fail (.poison a.1 a.2)
      | none =>
        match (bySlot r.ts).findSome? (r.s.accessFault core x) with
        | some t => if t.cause = 0 then .freeze .stackWait else .fail (.trap t)
        | none =>
          match if c0.part2 then none else r.s.queueFault core b with
          | some t => .fail (.trap t)
          | none =>
            if c0.dueLost then .fail (.trap { cause := cPROMOTE_LOST })
            else match State.firstFreeze r core x (hdrEW b.hdr.toNat) with
            | some f => .freeze f
            | none => .go

/-- The loops of the context whose work is done have ended (R131, R135). -/
def State.settleLoops (s : State) (core x : Nat) : State := s.modCtx core x (fun c => { c with loops := c.loops.settle })

/-- A bundle reaches issue: the state after a part-1 dispatch (R40), and what happens to it. A full slip blocks the bundle before the
checks of R119 steps 6 and 7 (DESIGN CHOICE, log entry 91). The grant holds a bundle with AM or AE before its part 2 only, when its slots 6 and
7 have been dispatched (DESIGN CHOICE, log entry 111). -/
def State.arriveAt (s : State) (core x : Nat) (b : Bundle) : State × Verdict :=
  let k := s.core core
  if k.frozen.isSome || k.arrayBehind then (s, .hold)
  else
    let s := s.settleLoops core x
    let c := s.ctx core x
    if c.lateData then (s, .freeze .data)
    else if c.part2 then (if k.aligning x then (s, .block) else (s, s.verdict core x b))
    else match (s.modCore core (fun k => k.deliver x)).earlyFault core x b with
    | some t => (s, .fail (.trap t))
    | none =>
      if k.slipFull then
        (s.modCtx core x (fun c => { c with
          needM := if 16 ≤ k.mq.length then k.mIss + 1 else 0, needE := if 16 ≤ k.eq.length then k.eIss + 1 else 0 }), .block)
      else if hdrAM b.hdr.toNat || hdrAE b.hdr.toNat then
        let s1 := s.modCore core (fun k => k.deliver x)
        match s1.dispatchFault core x b (s1.ctx core x).rept with
        | some f => (s, .fail f)
        | none =>
          match s1.queueFault core b with
          | some t => (s, .fail (.trap t))
          | none =>
            let s := s.dispatchFirst core x b
            if (s.core core).aligning x then (s, .block) else (s, s.verdict core x b)
      else (s, s.verdict core x b)

/-! ### Effects -/

/-- A plain move becomes a result of latency 1 (R31 step 5); a write to s0, m0 or g0 is ignored (R102). -/
def Ctx.plainMove (c : Ctx) (m : Move) : Ctx :=
  if isWritable (mvDst m.word) then
    c.push { due := c.count + 1, born := c.count, unit := rankPlain, slot := m.slot, dest := some (BitVec.ofNat 8 (mvDst m.word))
             latch := false, val := some m.src.val }
  else c

/-- An operating-point request (R59); the twins of a tidelocked pair both issue it (R44). -/
def State.request (s : State) (core x op : Nat) : State :=
  let pair := s.pairOf core
  let s := s.modCtx core x (fun c => { c with setLen := Config.settling c.setPrev op, setPrev := op })
  let ks := if (s.pair pair).mode = 1 then core :: (s.pairCores pair).filter (· != core) else [core]
  (ks.foldl (fun a k => a.modCore k (fun k => { k with req := op })) s).retarget pair

/-- A context ends at its halt (R143, R144); the plain moves of its last bundle are written (R31 step 5). -/
def State.haltCtx (s : State) (core x : Nat) : State :=
  let s := (s.modCore core (fun k => k.landPlain x)).endCtx core x
  if (s.core core).allHalted then s.abandonRecvs core else s

/-- eret after its bundle (R149). -/
def State.eretCtx (s : State) (core x : Nat) : State :=
  s.modCore core (fun k => let k := k.landPlain x; { k.setCtx x (k.ctx x).eret with latches := [] })

/-- Held stores whose pass has ended leave (R136). -/
def State.releasePass (s : State) (core x : Nat) : State :=
  match (s.ctx core x).loops.ml.releaseDue with
  | some j => s.releaseHeld core x (fun i => i == j)
  | none => s

/-- The flags that results due in the bundle raise (R84, R232), and the end of every wait. -/
def Ctx.issued (c c0 : Ctx) : Ctx :=
  let sys : CtxSys := { c.sys with fp := c.sys.fp ||| c0.dueFlags, bound := c.sys.bound || c0.dueBound }
  { c with needM := 0, needE := 0, waits := false, sys := sys }

/-- What every issued bundle ends with, once its moves, triggers and dispatches are done: the charge, the request of OP, the loop
ends and the next address, and what a sysw, halt, eret or trap of the bundle does after it. `c0` is the context before the bundle. -/
def State.finish (s : State) (core x : Nat) (c0 : Ctx) (h : Nat) (fx : Fx) : State :=
  let s := s.charge core c0.launch (hdrEW h)
  let s := if hdrOPC h then s.request core x (hdrOP h) else s
  let s := s.modCtx core x (fun c => (c.advance (hdrLE h) fx).issued c0)
  let s := s.modCore core (fun k => { k with now := k.now + 1, stalled := false })
  let s := s.releasePass core x
  let s := match fx.sysw with
    | some w => s.sysWrite core x w.1 w.2
    | none => s
  if fx.halted then s.haltCtx core x
  else if fx.eret then s.eretCtx core x
  else match fx.brk with
  | some code => s.takeTrap core x { cause := cBREAK, code := code }
  | none => s

/-- The accesses of a bundle's triggers are located before the bundle acts (R401): the state with what their walks leave, and the pieces of
each unit's. -/
def State.walkTrigs (core x : Nat) : List Trig → State → State × List (Nat × List Piece)
  | [], s => (s, [])
  | g :: t, s =>
    let w := s.wantsOf core x g
    match State.locateAll core x w.1 w.2 s with
    | .error _ => State.walkTrigs core x t s
    | .ok (s, ps) => let r := State.walkTrigs core x t s; (r.1, if ps.isEmpty then r.2 else (g.unit, ps) :: r.2)

/-- The triggers of a bundle act, one after another (R31 step 4). `fp` and `bound` are FPFLAGS and BOUND before the bundle. -/
def State.runTrigs (s : State) (core x : Nat) (fp : BitVec 5) (bound : Bool) (ts : List Trig) : State × Fx :=
  let w := State.walkTrigs core x ts (s.modCtx core x (fun c => (c.snapshot).consumeD ts))
  ts.foldl (trigRun fp bound core x) (w.1, { pieces := w.2 })

/-- The effects of a bundle that issues, in the order of R31. -/
def State.effects (s : State) (core x : Nat) (b : Bundle) : State :=
  let c0 := s.ctx core x
  let r := s.readyFor core x b
  let t := r.s.runTrigs core x c0.sys.fp c0.sys.bound r.ts
  let s := t.1.modCtx core x (fun c => (r.ms.filter (fun m => !m.toPort)).foldl Ctx.plainMove c)
  let s := if c0.part2 then s else s.dispatch core x b
  s.finish core x c0 b.hdr.toNat t.2

/-- A bundle that fails has none of its effects (R119, R137, R146). -/
def State.failAt (s : State) (core x : Nat) (f : Failure) : State :=
  match f with
  | .trap t => s.takeTrap core x t
  | .poison a pos => s.consumePoison core x cPOISON pos a

/-! ### Blocking (R49 to R52) -/

/-- An asynchronous trap is pending for the context and may be taken (R146). -/
def Ctx.asyncDue (c : Ctx) : Bool := !c.inHandler && (!c.uip.isEmpty || decide (c.overruns ≠ 0))

/-- The blocking condition of the context's bundle has cleared (R49). -/
def Core.unblocked (k : Core) (x : Nat) : Bool := !(k.aligning x) && (!(k.ctx x).waits || decide ((k.ctx x).tokens ≠ 0))

/-- The context may take the core (R51). -/
def Core.mayRun (k : Core) (x : Nat) : Bool :=
  match (k.ctx x).phase with
  | .ready => true
  | .blocked => k.unblocked x || (k.ctx x).asyncDue
  | _ => false

/-- The running context switches out, and the core picks the next (R51). -/
def Core.switchNext (k : Core) (x : Nat) : Core :=
  let k := k.switchOut x
  match nextCtx k.mayRun x with
  | some y => k.takeOver y
  | none => k

/-- A blocked bundle: a switch with MB 1, a stall with MB 0 (R50). -/
def State.blockAt (s : State) (core x : Nat) (b : Bundle) : State :=
  let c := s.ctx core x
  let w := !((s.core core).aligning x)
  let s := s.setCtx core x { c with waits := w }
  s.modCore core (fun k =>
    if hdrMB b.hdr.toNat then k.switchNext x else { k with stalled := true, idle := if k.stalled then k.idle else k.now })

/-- An asynchronous trap is taken before the context's next bundle, USER_INTERRUPT first (R146). -/
def State.takeAsync (s : State) (core x : Nat) : State :=
  let c := s.ctx core x
  match c.uip with
  | ch :: t => (s.setCtx core x { c with uip := t }).takeTrap core x { cause := cUSER_INTERRUPT, code := ch }
  | [] => (s.setCtx core x { c with overruns := c.overruns - 1 }).takeTrap core x { cause := cPHASER_OVERRUN }

/-! ### The issue of a bundle -/

/-- The next bundle of this core is one whose twins disagree (R46). -/
def State.divergeAt (s : State) (core x : Nat) : State :=
  let s := { s with diverges := s.diverges.filter (· != core) }
  let s := s.modDie (dieOfCore core) (fun d => { d with div := min 0xFFFF (d.div + 1) })
  s.consumePoison core x cTIDELOCK_DIVERGENCE posNone 0

/-- The pair of a core is tidelocked (R44). (DEDUCED, log entry 20.) -/
def State.tidelockedAt (s : State) (core : Nat) : Bool := (s.pair (s.pairOf core)).mode == 1

/-- A timing-error replay at OP6 or OP7 (R62): the bundle issues again, and counts once. -/
def State.replayAt (s : State) (core : Nat) : State :=
  if s.replays.contains core then
    let s := { s with replays := s.replays.filter (· != core) }
    if 6 ≤ (s.pair (s.pairOf core)).cur then s.modCore core (fun k => { k with replay := min 0xFFFFFFFF (k.replay + 1) }) else s
  else s

/-- Triggers of a bundle give the twins of a tidelocked group results or requests that differ, each from its own stores (R45, R46): what
enters the list of results in flight, an add to another core, or a register that the upper twin reads as another value. (DEDUCED, log
entry 20.) -/
def State.twinsDiffer (s : State) (core x : Nat) (ts : List Trig) : Bool :=
  match (s.core core).twin with
  | none => false
  | some t =>
    let run (u : State) : State := (u.runTrigs core x (s.ctx core x).sys.fp (s.ctx core x).sys.bound ts).1
    let lo := run s
    let up := run (s.asUpper core t)
    !ts.isEmpty && ((lo.ctx core x).flight != (up.ctx core x).flight || lo.saSteps != up.saSteps
      || ts.any (fun g => g.unit == 3 && g.port == 18 && s.twinReadsOther core g.ts.toNat))

/-- The twins' signatures of a bundle differ (R46). -/
def State.mismatch (s : State) (core x : Nat) (b : Bundle) : Bool :=
  let r := s.readyFor core x b
  r.s.twinsDiffer core x r.ts

/-- The timing checks of a bundle of a core, in a tidelocked group also its upper twin's (R44, R62). -/
def State.replayBoth (s : State) (core : Nat) : State :=
  match s.upperOf core with
  | none => s.replayAt core
  | some up => (s.replayAt core).replayAt up

/-- A bundle passes every check and takes effect, unless its twins disagree. -/
def State.commit (s : State) (core x : Nat) (b : Bundle) : State :=
  let s := s.replayBoth core
  if (s.diverges.contains core && s.tidelockedAt core) || s.mismatch core x b then s.divergeAt core x
  else ({ s with diverges := s.diverges.filter (· != core) }).effects core x b

/-- A bundle freezes its core (R35). One that the promotion log has no room for starts the drain that makes it (R279). -/
def State.freezeAt (s : State) (core : Nat) (f : Freeze) : State :=
  let s := if f = .logFull ∧ (s.core core).drain.isNone then
      s.modCore core (fun k => { k with drain := k.log.head?.map (·.gen), ovfd := min (k.ovfd + 1) 0xFFFF })
    else s
  s.freeze core f

/-- A stall in place ends when its bundle no longer blocks, or when an asynchronous trap is due (R50). -/
def Core.endStall (k : Core) (x : Nat) : Core := if k.frozen.isNone && (k.unblocked x || (k.ctx x).asyncDue) then k.endGap else k

/-- Context x of a core that does not stall issues bundle b, if nothing stands in its way. -/
def State.issueNow (s : State) (core x : Nat) (b : Bundle) : State :=
  if (s.ctx core x).asyncDue && (s.core core).frozen.isNone then s.takeAsync core x
  else
    let a := s.arriveAt core x b
    match a.2 with
    | .hold => a.1
    | .fail f => a.1.failAt core x f
    | .freeze f => a.1.freezeAt core f
    | .block => a.1.blockAt core x b
    | .go => a.1.commit core x b

/-- Context x of a core issues bundle b: a stall ends first, or goes on (R36, R50). -/
def State.issueOn (s : State) (core x : Nat) (b : Bundle) : State :=
  if (s.core core).stalled then
    let t := s.modCore core (fun k => k.endStall x)
    if (t.core core).stalled then s else t.issueNow core x b
  else s.issueNow core x b

/-- The running context of the core in focus issues bundle b (R31). -/
def issueBundle (b : Bundle) (s : State) : State :=
  match (s.core s.focus).run with
  | some x => s.issueOn s.focus x b
  | none => s

/-! ### Fetch (R35, R97, R401, R410) -/

/-- What a fetch gives. -/
inductive Fetched where
  | bundle (b : Bundle)
  | trap (t : Trap)
  | poison (addr : Dw)
  | freeze (f : Freeze)
deriving DecidableEq, Repr

/-- The bytes of a bundle at a physical address, under its leaf (R388, R398, R399). -/
def State.bundleBytes (s : State) (pa entry : Nat) : List Byte :=
  if paReg pa then [0, 8, 16, 24].flatMap (fun o => bytesOf 8 (s.region10Read (pa % 2 ^ 44 + o) 8).toNat)
  else if s.mixedAt pa entry then (List.range 32).map (fun i => Config.mixedKeyByte (s.freeCtr + i))
  else if pteCA entry = 2 then readSeq s.uncByte pa 32
  else readSeq s.homeByte pa 32

/-- Fetch the bundle at the context's program counter; a translation enters the caches. -/
def State.fetch (s : State) (core x : Nat) : State × Fetched :=
  let c := s.ctx core x
  let va := c.pc.toNat
  if va % 32 ≠ 0 then (s, .trap { cause := cALIGNMENT, addr := some c.pc })
  else match s.translate (s.ctxAgent core x) accFetch va with
  | .error f =>
    if f.waits then (s, .freeze .stackWait)
    else (s, .trap { cause := f.cause, addr := some c.pc, xfstat := some (xfstatOf f accFetch) })
  | .ok (t, p) =>
    if !(t.stackReady p.pa) then (t, .freeze .stackWait)
    else if t.homeMarked p.pa || !(t.hasKey (pteKey p.entry)) || t.deadHome p.pa then (t, .poison c.pc)
    else
      (if t.mixedAt p.pa p.entry then { t with freeCtr := t.freeCtr + 32 } else t,
       .bundle (Bundle.ofNat (natOfBytes (t.bundleBytes p.pa p.entry))))

end Sys2Proof.Machine
end

