-- ==== Sys2Proof/Machine/Launch.lean ====
section
/-! DEFINITION. The launch processor (R359 to R386): queues and packets, refusal, barriers, placement, start, end and completion of
launches, energy budgets, pre-emption and resumption. -/

namespace Sys2Proof.Machine

/-! ### Queue descriptors (R359) -/

def Die.rbase (d : Die) (q : Nat) : Nat := d.qdw q 0
def Die.ptroot (d : Die) (q : Nat) : Nat := fld (d.qdw q 1) 51 0
def Die.vec (d : Die) (q : Nat) : Nat := fld (d.qdw q 2) 31 21
def Die.irq (d : Die) (q : Nat) : Bool := bitOf (d.qdw q 2) 20
def Die.en (d : Die) (q : Nat) : Bool := bitOf (d.qdw q 2) 19
def Die.priomax (d : Die) (q : Nat) : Nat := fld (d.qdw q 2) 18 17
def Die.qpriv (d : Die) (q : Nat) : Bool := bitOf (d.qdw q 2) 16
def Die.qowner (d : Die) (q : Nat) : Byte := BitVec.ofNat 8 (fld (d.qdw q 2) 15 8)
def Die.sz (d : Die) (q : Nat) : Nat := fld (d.qdw q 2) 4 0
def Die.readidx (d : Die) (q : Nat) : Nat := d.qdw q 3
def Die.devmask (d : Die) (q : Nat) : Nat := d.qdw q 5
def Die.savebase (d : Die) (q : Nat) : Nat := d.qdw q 6
def Die.savelen (d : Die) (q : Nat) : Nat := d.qdw q 7

/-- The descriptor is served (R359). -/
def Die.served (d : Die) (q : Nat) : Bool :=
  d.en q && decide (fld (d.qdw q 1) 63 52 = 0) && decide (fld (d.qdw q 2) 63 32 = 0) && decide (fld (d.qdw q 2) 7 5 = 0)
    && decide (4 ≤ d.sz q) && decide (d.sz q ≤ 16) && !(d.irq q && d.vec q == 2047)

/-- LASTERR of a queue (R359). -/
def Die.setErr (d : Die) (q c : Nat) : Die := d.setQdw q 4 (d.qdw q 4 % 2 ^ 32 + c % 256 * 2 ^ 32)

/-- The launch processor of a die is there: its die is powered, ready and not fenced (R422, R439). -/
def State.lpUp (s : State) (die : Nat) : Bool :=
  let d := s.die die
  bitOf d.ready.toNat 32 && !d.fenced && !d.stopped && !s.powerOff

/-- It is at work: queues are read (R428, R432). -/
def State.lpReady (s : State) (die : Nat) : Bool := s.lpUp die && s.susp == .running && !s.hardTrip

/-- The translation of everything done on a queue's behalf (R400). -/
def Launch.agent (l : Launch) : Agent := supervisorAgent l.owner l.root

/-- Dword i of the MSI-X table: two dwords a vector, the address, then the data and, at bit 32, the mask bit (R388, R391). A table
entry is masked until the host has cleared its mask bit. (PRESUMED, log entry 92.) -/
def State.msixDw (s : State) (i : Nat) : Dw := Sp.get (if i % 2 = 1 then 0x1_0000_0000 else 0) s.msixTable i
/-- The vector is masked, by its own bit or by the function's. -/
def State.msixMasked (s : State) (v : Nat) : Bool := s.msixMask || bitOf (s.msixDw (2 * v + 1)).toNat 32

/-- An MSI-X vector is sent, or stays pending while it is masked (R391). -/
def State.sendVec (s : State) (v : Nat) : State :=
  if !s.msixOn then s
  else if s.msixMasked v then { s with msixPend := addMark s.msixPend v }
  else { s with msix := v :: s.msix }
/-- VEC of a queue, when IRQ is 1. -/
def State.queueVec (s : State) (die q : Nat) : State := if (s.die die).irq q then s.sendVec ((s.die die).vec q) else s

/-- A change of what the launch processor keeps of one queue. -/
def State.modQ (s : State) (die q : Nat) (f : QState → QState) : State :=
  s.modDie die (fun d => { d with qstate := Sp.set {} d.qstate q (f (Sp.get {} d.qstate q)) })
def State.qs (s : State) (die q : Nat) : QState := Sp.get {} (s.die die).qstate q

/-! ### Packets and refusal (R363 to R367) -/

/-- Dwords of a list of bytes. -/
def dwordsOf : Nat → List Byte → List Dw
  | 0, _ => []
  | n + 1, bs => BitVec.ofNat 64 (natOfBytes (bs.take 8)) :: dwordsOf n (bs.drop 8)

def Launch.type (l : Launch) : Nat := fld l.hdr 3 0
def Launch.prio (l : Launch) : Nat := fld l.hdr 9 8
def Launch.entry (l : Launch) : Nat := dwOf l.packet 1
def Launch.karg (l : Launch) : Nat := dwOf l.packet 2
def Launch.sigaddr (l : Launch) : Nat := dwOf l.packet 6
def Launch.sigval (l : Launch) : Nat := dwOf l.packet 7

/-- The counts of a kernel packet. -/
def Launch.counts (l : Launch) : List Nat := [l.ndom, l.ndev, l.nsg, l.nclu, l.ncg, l.nctx]

/-- Check 1 of R367. -/
def Launch.malformed (l : Launch) : Bool :=
  decide (2 < l.type) || decide (fld l.hdr 31 12 ≠ 0) || bitOf l.hdr 7 ||
  (if l.type = 1 then
    decide (fld (dwOf l.packet 3) 63 26 ≠ 0) || decide (fld (dwOf l.packet 4) 63 44 ≠ 0) || decide (fld (dwOf l.packet 4) 31 22 ≠ 0)
      || decide (fld (dwOf l.packet 4) 15 9 ≠ 0) || decide (fld (dwOf l.packet 5) 63 32 ≠ 0) || decide (64 < l.ndev)
      || decide (16 < l.nsg) || decide (4 < l.nclu) || decide ((if l.tidelocked then 8 else 16) < l.ncg) || decide (4 < l.nctx)
      || decide (32 < l.nch) || decide (256 < l.saRows)
   else decide (fld (dwOf l.packet 3) 63 2 ≠ 0) || decide (dwOf l.packet 4 ≠ 0) || decide (dwOf l.packet 5 ≠ 0))

/-- Check 2 of R367: KARG, or WADDR, and SIGADDR. -/
def Launch.crooked (l : Launch) : Bool :=
  decide ((if l.type = 1 then l.karg else dwOf l.packet 1) % 8 ≠ 0) || decide (l.sigaddr % 16 ≠ 0)

/-- Fields of the kernel record (R366). -/
def krScratch (r : List Dw) : Nat := fld (dwOf r 0) 19 0
def krCtx (r : List Dw) : Nat := fld (dwOf r 0) 22 20
def krRows (r : List Dw) : Nat := fld (dwOf r 0) 31 23
def krReserved (r : List Dw) : Bool :=
  decide (fld (dwOf r 0) 63 32 ≠ 0) || decide (dwOf r 1 ≠ 0) || decide (dwOf r 2 ≠ 0) || decide (dwOf r 3 ≠ 0)

/-- Check 6 of R367. -/
def Launch.beyond (l : Launch) (r : List Dw) (devmask : Nat) : Bool :=
  decide (krCtx r < l.nctx) || decide (krRows r < l.saRows) || decide (Config.sramBytes - l1Bytes l.l1szOf < krScratch r)
    || (decide (l.nch ≠ 0) && decide (l.emask = 0)) || decide (popNat 64 devmask < l.ndev)

/-- The checks of R367 on a packet: the state after the read of the kernel record, the status of a refusal (0 for none), and the
packet with SCRATCH of its record. -/
def State.checkPacket (s : State) (l : Launch) (devmask : Nat) : State × Nat × Launch :=
  if l.malformed then (s, cILLEGAL_MOVE, l)
  else if l.crooked then (s, cALIGNMENT, l)
  else if l.barrier || l.empty then (s, 0, l)
  else if l.entry % 32 ≠ 0 then (s, cALIGNMENT, l)
  else match State.readV l.agent accRecord ((l.entry + 2 ^ 64 - 32) % 2 ^ 64) 32 s with
  | .error f => (s, f.cause, l)
  | .ok (s, bs) =>
    let r := dwordsOf 4 bs
    if krReserved r then (s, cILLEGAL_MOVE, l)
    else if l.beyond r devmask then (s, cPERMISSION, l)
    else (s, 0, { l with scratch := krScratch r })

/-- What the packets of a queue take from its descriptor. -/
def Die.rights (d : Die) (q : Nat) : QueueRights :=
  { owner := d.qowner q, root := d.ptroot q, priv := d.qpriv q, devmask := d.devmask q, cls := d.priomax q }

/-- A packet as the launch processor of a die takes it with the rights of its queue. -/
def packetOf (die q : Nat) (o : QueueRights) (packet : List Dw) (origin : Option (Nat × Nat)) : Launch :=
  let l : Launch := { die := die, q := q, packet := packet, owner := o.owner, root := o.root, priv := o.priv, devmask := o.devmask,
                      origin := origin }
  { l with barrier := l.type == 2, empty := l.type == 1 && l.counts.contains 0, cls := max l.prio o.cls }

/-- The read of the packet's kernel record comes to a stack that is not ready: the packet waits (R438). -/
def State.recordWaits (s : State) (l : Launch) : Bool :=
  if l.malformed || l.crooked || l.barrier || l.empty || decide (l.entry % 32 ≠ 0) then false
  else match State.readV l.agent accRecord ((l.entry + 2 ^ 64 - 32) % 2 ^ 64) 32 s with
  | .error f => f.waits
  | .ok _ => false

/-- A packet enters the launch processor of a die: refused (it then only has its completion to make), waiting, or a barrier that holds its
queue. A share that another device has forwarded is no packet of the queue here that has its queue's number (R368, R386). -/
def State.takePacket (s : State) (die q : Nat) (o : QueueRights) (packet : List Dw) (origin : Option (Nat × Nat)) : State :=
  let l := packetOf die q o packet origin
  let r := s.checkPacket l l.devmask
  let n := r.1.nextLaunch
  let l := r.2.2
  let l := if r.2.1 = 0 then l else { l with status := r.2.1, empty := true, phase := .running }
  let s := { r.1 with launches := Sp.put r.1.launches n l, nextLaunch := n + 1 }
  if origin.isSome then s
  else s.modQ die q (fun z => { z with open_ := z.open_ ++ [n], barrier := if l.barrier ∧ r.2.1 = 0 then some n else z.barrier })

/-- The queue stalls at a slot (R360). -/
def State.stallQueue (s : State) (die q cause : Nat) : State :=
  ((s.modDie die (fun d => d.setErr q cause)).modQ die q (fun z => { z with stalled := true })).queueVec die q

/-- A fault of the launch processor's access to a slot: the queue stalls, or the slot is read later, when a stack has become ready (R360,
R438). -/
def State.slotFault (s t : State) (die q : Nat) (f : XFault) : State := if f.waits then s else t.stallQueue die q f.cause

/-- packetRead (R360): the next slot of a queue is acquired and read, its TYPE cleared, READIDX raised. -/
def State.packetRead (s : State) (die q : Nat) : State :=
  let d := s.die die
  let z := s.qs die q
  if !(s.lpReady die) || !(d.served q) || z.stalled || z.barrier.isSome || decide (z.widx ≤ d.readidx q) then s
  else
    let ag := supervisorAgent (d.qowner q) (d.ptroot q)
    let va := (d.rbase q + 64 * (d.readidx q % 2 ^ d.sz q)) % 2 ^ 64
    let t := s.l2Invalidate
    match State.readV ag accRead va 64 t with
    | .error f => s.slotFault t die q f
    | .ok (t, bs) =>
      let h := bs.headD 0
      let p := dwordsOf 8 bs
      if h.toNat % 16 = 0 then t
      else if t.recordWaits (packetOf die q (d.rights q) p none) then s
      else match t.writeV ag va [h &&& 0xF0] with
      | .error f => s.slotFault t die q f
      | .ok t => (t.modDie die (fun d => d.setQdw q 3 ((d.readidx q + 1) % 2 ^ 64))).takePacket die q (d.rights q) p none

/-- queueNotify (R361): a write of `n` bytes at byte `off` of a notify register. -/
def State.queueNotify (s : State) (die q n off : Nat) (v : Dw) : State :=
  let die := die % Config.dies
  let q := q % 256
  let off := off % 8
  let n := min n (8 - off)
  s.notifyWrite die q (BitVec.ofNat 64 (mergeBytes (Sp.get 0 (s.die die).notify q).toNat off n v.toNat))

/-! ### Completion (R368 to R371) -/

/-- Every earlier packet of the launch's queue has completed, or ORD is 0 (R368). A share has waited where its packet was read. -/
def State.ordOk (s : State) (n : Nat) (l : Launch) : Bool :=
  !l.ord || l.origin.isSome || (s.qs l.die l.q).open_.all (fun m => decide (n ≤ m))

/-- The start acquire (R369) and the completion release at their scopes, as the launch processor makes them. -/
def State.startAcquire (s : State) (l : Launch) : State := if l.afs then s.l2Invalidate else s
def State.endRelease (s : State) (l : Launch) : State := if l.rfs then s.l2WriteBack else s

/-- The completion signal (R370), its vector (R391), or LASTERR. -/
def State.writeSignal (s : State) (l : Launch) (status : Nat) : State :=
  if l.noSignal ∨ l.sigaddr = 0 then s
  else match s.writeV l.agent l.sigaddr (bytesOf 8 (l.launchId * 2 ^ 32 + status % 256) ++ bytesOf 8 l.sigval) with
  | .error f => (s.modDie l.die (fun d => d.setErr l.q f.cause)).queueVec l.die l.q
  | .ok s => s.queueVec l.die l.q

/-- The signal's place is on a stack that is not ready: the completion waits (R438). -/
def State.signalWaits (s : State) (l : Launch) : Bool :=
  if l.origin.isSome || l.noSignal || l.sigaddr == 0 then false
  else match s.writeV l.agent l.sigaddr (List.replicate 16 0) with
  | .error f => f.waits
  | .ok _ => false

/-- The energy that a share has been charged goes to the launch that forwarded it, which counts it and has the budget (R379, R386).
(DEDUCED, log entry 53.) -/
def State.reportEnergy (s : State) (n : Nat) (l : Launch) : State :=
  match l.origin with
  | some o => if l.ebudget ≠ 0 ∧ l.energy ≠ 0 then
      (s.sendOrbit (.energy o.1 o.2 Config.devId l.energy)).modLaunch n (fun l => { l with energy := 0 }) else s
  | none => s

/-- The packet has completed: its signal is written, or the share's end reported to the device that forwarded it (R386). -/
def State.finishPacket (s : State) (n : Nat) (l : Launch) (status : Nat) : State :=
  let s := (s.reportEnergy n l).endRelease l
  let s := match l.origin with
    | some o => s.sendOrbit (.shareDone o.1 o.2 Config.devId status)
    | none => s.writeSignal l status
  let s := s.setLaunch n { l with
    phase := .done, status := status, saved := [], savedSlots := [], energy := if l.origin.isSome then 0 else l.energy }
  s.modQ l.die l.q (fun z => { z with
    open_ := z.open_.filter (· != n), barrier := if z.barrier = some n then none else z.barrier })

/-! ### Barriers (R365) -/

/-- The watched dword meets the condition. -/
def Launch.barrierMet (l : Launch) (v : Nat) : Bool :=
  let w := dwOf l.packet 2
  match fld (dwOf l.packet 3) 1 0 with
  | 0 => v == w
  | 1 => v != w
  | 2 => decide (w ≤ v)
  | _ => decide (v < w)

/-- barrierPoll (R365): the launch processor reads the watched dword of the barrier that holds a queue, an acquire at SYS. -/
def State.barrierPoll (s : State) (die q : Nat) : State :=
  match (s.qs die q).barrier with
  | none => s
  | some n =>
    let l := s.launch n
    if !(s.lpReady die) || !(s.ordOk n l) || s.signalWaits l then s
    else
      let t := s.l2Invalidate
      match State.readV l.agent accRead (dwOf l.packet 1) 8 t with
      | .error f => if f.waits then s else t.finishPacket n l f.cause
      | .ok (t, bs) => if l.barrierMet (natOfBytes bs) then t.finishPacket n l 0 else t

/-! ### Placement (R372 to R375) -/

/-- A cluster is ready, and its die answers. -/
def State.cluReady (s : State) (clu : Nat) : Bool :=
  let d := s.die (dieOfClu clu)
  bitOf d.ready.toNat (clu % 16) && !d.fenced && !d.stopped

/-- The stack of a cluster's stack group is ready (R438). -/
def State.groupStack (s : State) (clu : Nat) : Bool := bitOf (s.die (dieOfClu clu)).ready.toNat (16 + sgOfClu clu % 4)

/-- The twin of a logical core holds no launch of another owner (R206, R372). -/
def State.twinOk (s : State) (clu logical : Nat) (owner : Byte) : Bool :=
  let twin := (s.clu clu).entry (if logical % 2 = 0 then logical + 1 else logical - 1)
  match s.launchOf (coreKey clu twin) with
  | some o => decide (16 < twin) || o.owner == owner || o.owner == 0 || owner == 0
  | none => true

/-- The core of a cluster under test, while a test drains, holds or runs. -/
def Cluster.underTest (c : Cluster) (p : Nat) : Bool :=
  (c.tstate == .draining || c.tstate == .held || c.tstate == .running) && c.tcore == p

/-- A core may take a group of an owner: its physical core is mapped and free, and its twin holds no launch of another owner (R372).
`test` allows a core whose test, held or running, the class may abort; a core that drains holds its launch's groups (R155, R156,
R440). -/
def State.coreFree (s : State) (clu logical : Nat) (owner : Byte) (cls : Nat) (test : Bool) : Bool :=
  let c := s.clu clu
  let p := c.entry logical
  let k := s.core (coreKey clu p)
  decide (p ≤ 16) && s.twinOk clu logical owner &&
    (if c.underTest p then
      test && c.tstate != .draining && decide (cls ≤ c.abortPri) && decide (c.before = 0) && (k.launch.isNone || k.groupDone)
     else c.pc p == 0 && k.launch.isNone)

/-- The core, or the whole pair for a tidelocked launch, that the group at a logical core needs is free. -/
def State.placeFree (s : State) (l : Launch) (clu logical : Nat) (test : Bool) : Bool :=
  if l.tidelocked then
    logical % 2 == 0 && s.coreFree clu logical l.owner l.cls test && s.coreFree clu (logical + 1) l.owner l.cls test
  else s.coreFree clu logical l.owner l.cls test

/-- Logical cores of a cluster that may take a group, lowest first: none unless the cluster and the stack of its stack group are ready
(R438). -/
def State.freeIn (s : State) (l : Launch) (clu : Nat) (test : Bool) : List Nat :=
  if s.cluReady clu && s.groupStack clu then (List.range 16).filter (fun n => s.placeFree l clu n test) else []

/-- The engine that channel k of a core is bound to (R374). -/
def engineOf (emask clu logical k : Nat) : Nat :=
  let e := (List.range 12).filter (fun i => bitOf emask i)
  e.getD ((16 * (clu % 16) + logical + k) % e.length) 0

/-- The die and engine of every channel bound on the device; channels of a pre-empted launch stay bound (R383). -/
def State.boundEngines (s : State) : List (Nat × Nat) :=
  let of (c : Nat × Core) : List (Nat × Nat) := c.2.chans.map (fun h => (dieOfCore c.1, h.2.engine))
  s.cores.flatMap of ++ s.launches.flatMap (fun l => l.2.saved.flatMap of)

/-- The engines of one more group's channels beside those that are bound, when they are ready and have room for them (R374, R438). -/
def State.bindFor (s : State) (l : Launch) (used : List (Nat × Nat)) (clu logical : Nat) : Option (List (Nat × Nat)) :=
  let need := (List.range l.nch).map (fun k => (dieOfClu clu, engineOf l.emask clu logical k))
  if need.all (fun e => bitOf (s.die e.1).ready.toNat (20 + e.2) &&
      decide ((need.filter (· == e)).length + (used.filter (· == e)).length ≤ Config.channelsPerEngine)) then some (need ++ used)
  else none

/-- n members of a list in its order, each entered by `f`, such that `k` accepts what comes of them: the first choice, earlier members
first. -/
def search {α β γ : Type} (f : α → β → (β → Option γ) → Option γ) : Nat → List α → β → (β → Option γ) → Option γ
  | 0, _, b, k => k b
  | _ + 1, [], _, _ => none
  | n + 1, a :: t, b, k =>
    if t.length < n then none
    else match f a b (search f n t · k) with
    | some r => some r
    | none => search f (n + 1) t b k

/-- Places under search: the engines bound so far, and the cluster and logical core of each group, latest first. -/
abbrev Places := List (Nat × Nat) × List (Nat × Nat)

/-- The clusters and logical cores of the groups of a launch on this device, in the order of their indexes, so that the engines suffice: of
all choices the first, stack groups, clusters and cores lowest first. (DESIGN CHOICE, log entry 24.) -/
def State.pickPlaces (s : State) (used : List (Nat × Nat)) (l : Launch) (test : Bool) : Option (List (Nat × Nat)) :=
  let core (clu n : Nat) (b : Places) (k : Places → Option (List (Nat × Nat))) : Option (List (Nat × Nat)) :=
    match s.bindFor l b.1 clu n with
    | some u => k (u, (clu, n) :: b.2)
    | none => none
  let cluster (clu : Nat) (b : Places) (k : Places → Option (List (Nat × Nat))) := search (core clu) l.ncg (s.freeIn l clu test) b k
  let group (sg : Nat) (b : Places) (k : Places → Option (List (Nat × Nat))) :=
    search cluster l.nclu ([0, 1, 2, 3].map (4 * sg + ·)) b k
  search group l.nsg (List.range 16) (used, []) (fun b => some b.2.reverse)

/-- The i-th group of a launch, at a logical core of a cluster (R372). -/
def State.groupAt (s : State) (l : Launch) (dev i : Nat) (p : Nat × Nat) : Group :=
  { core := coreKey p.1 ((s.clu p.1).entry p.2), logical := p.2, clu := p.1
    ix := { ctx := 0, cg := i % l.ncg, clu := i / l.ncg % l.nclu, sg := i / (l.ncg * l.nclu), dev := dev }
    twin := if l.tidelocked then some (coreKey p.1 ((s.clu p.1).entry (p.2 + 1))) else none }

/-- The groups of a launch on this device as device index `dev`, beside these bound channels (the choice is the launch processor's,
R372). -/
def State.pickGroups (s : State) (used : List (Nat × Nat)) (l : Launch) (dev : Nat) (test : Bool) : Option (List Group) :=
  (s.pickPlaces used l test).map (fun ps => (ps.zip (List.range ps.length)).map (fun e => s.groupAt l dev e.2 e.1))

/-- Device index of this device in DEVMASK, when it is one of the first NDEV (R372). -/
def deviceIndex (devmask ndev : Nat) : Option Nat :=
  if bitOf devmask Config.devId then
    let i := ((List.range Config.devId).filter (fun d => bitOf devmask d)).length
    if i < ndev then some i else none
  else none

/-- The groups at which a launch can be placed beside these bound channels, and whether a test must be aborted for it (R156). -/
def State.placementBeside (s : State) (used : List (Nat × Nat)) (l : Launch) : Option (List Group × Bool) :=
  match deviceIndex l.devmask l.ndev with
  | none => some ([], false)
  | some dev =>
    match s.pickGroups used l dev false with
    | some gs => some (gs, false)
    | none => (s.pickGroups used l dev true).map (fun gs => (gs, true))

/-- The groups at which a launch can be placed now. -/
def State.placement (s : State) (l : Launch) : Option (List Group × Bool) := s.placementBeside s.boundEngines l

/-- The physical cores of a group. -/
def Group.cores (g : Group) : List Nat := g.core :: g.twin.toList

/-- The tests of the clusters in which the groups take a core under test are aborted (R156). -/
def State.abortFor (s : State) (gs : List Group) : State :=
  gs.foldl (fun a g => g.cores.foldl (fun a k => if (a.clu g.clu).underTest (physOfCore k) then a.abortTest g.clu else a) a) s

/-- The bytes of the scratch section of a launch's code object, read in its address space (R25, R366). A section that no loader has
recorded, or that cannot be read, gives no bytes. (DESIGN CHOICE, log entry 93.) -/
def State.sectionBytes (s : State) (l : Launch) : State × List Byte :=
  match s.sections.find? (fun x => x.root == l.root && x.owner == l.owner && x.entry == l.entry) with
  | none => (s, [])
  | some x =>
    match State.readV l.agent accRead x.place (min x.len l.scratch) s with
    | .ok r => r
    | .error _ => (s, [])

/-- The scratch section is read later, when a stack has become ready (R438). -/
def State.sectionWaits (s : State) (l : Launch) : Bool :=
  match s.sections.find? (fun x => x.root == l.root && x.owner == l.owner && x.entry == l.entry) with
  | none => false
  | some x =>
    match State.readV l.agent accRead x.place (min x.len l.scratch) s with
    | .ok _ => false
    | .error f => f.waits

/-- A scratchpad at the start of a group (R25, R375): the scratch section and zeros up to SCRATCH; above it, when the owner is the
same, what the previous launch's scratchpad held. (DESIGN CHOICE, log entry 27.) -/
def startScratch (old : Sp Byte) (keep : Bool) (oldSize scratch : Nat) (sect : List Byte) : Sp Byte :=
  let kept := if keep then old.filter (fun e => decide (scratch ≤ e.1) && decide (e.1 < oldSize)) else []
  Memory.writes kept (cellsAt 0 (sect.take scratch))

/-- The start of a context (R375). -/
def Launch.startCtx (l : Launch) (n : Nat) (ix : Indexes) (cur x : Nat) : Ctx :=
  { phase := .ready, launch := n, pc := BitVec.ofNat 64 l.entry, setPrev := cur, priv := l.priv, ix := { ix with ctx := x }
    bank := ({} : Bank).write 1 (.s (BitVec.ofNat 64 l.karg)) none }

/-- A core at the start of a group (R374, R375): what the core keeps are its generations, log, counters, cycle count and request. Context 0
runs first (DESIGN CHOICE, log entry 101). -/
def Core.startGroup (k : Core) (n : Nat) (l : Launch) (g : Group) (cur : Nat) (sect : List Byte) : Core :=
  let keep := k.prevOwner == some l.owner
  { k with
    ctxs := (List.range l.nctx).map (fun x => (x, l.startCtx n g.ix cur x))
    run := some 0, latches := []
    tiles := if keep then k.tiles else [], tileMarks := if keep then k.tileMarks else []
    mq := [], eq := [], mrun := none, marks := []
    scratch := startScratch k.scratch keep k.scratchSize l.scratch sect
    scratchPoison := if keep then k.scratchPoison.filter (fun m => decide (l.scratch ≤ 32 * m) && decide (32 * m < k.scratchSize)) else []
    sa := [], comps := [], promos := [], frozen := none, stalled := false, twin := none, granted := false
    chans := (List.range l.nch).map (fun c => (c, { engine := engineOf l.emask g.clu g.logical c }))
    launch := some n, logical := g.logical, groupDone := false, prevOwner := some l.owner, l1sz := l.l1szOf }

/-- Profile slots and decode table of a pair before a group of an owner starts (R206). -/
def Pair.ownerChange (p : Pair) (o : Byte) : Pair :=
  if p.slots.all (fun e => e.2.owner == o || e.2.owner == 0 || o == 0) then p else { p with slots := [], dtab := [] }

/-- The upper twin of a tidelocked group: its contexts, queues and channels are the lower twin's (R45, R373). -/
def Core.asTwin (k : Core) : Core := { k with ctxs := [], run := none, chans := [], groupDone := true }

/-- One group starts: its pair's mode, slots, and core; the kernel-start acquire (R274). A tidelocked group also holds the upper
twin, whose own stores stand beside the lower's (R45). -/
def State.startGroup (s : State) (n : Nat) (l : Launch) (sect : List Byte) (g : Group) : State :=
  let pair := pairKey g.clu g.logical
  let s := s.modPair pair (fun p => { p.ownerChange l.owner with mode := if l.tidelocked then 1 else 0 })
  let s := g.cores.foldl (fun a k => (a.flushL1 k).acquire k 3) s
  let cur := (s.pair pair).cur
  let s := s.modCore g.core (fun k => k.startGroup n l g cur sect)
  match g.twin with
  | some up =>
    let conf := (s.core g.core).confs
    let s := s.modCore up (fun k => { (k.startGroup n l { g with logical := g.logical + 1 } cur sect).asTwin with confAt := conf })
    s.modCore g.core (fun k => { k with twin := some (s.core up).stores })
  | none => s

/-- A launch's place in the order of arrival: a pre-empted one stands where it was when it was pre-empted, ahead of later arrivals (R377;
DEDUCED, log entry 124). -/
def arrivalNo (e : Nat × Launch) : Nat := if e.2.phase = .preempted then e.2.heldNo else e.1

/-- The waiting order (R372): class, then arrival; of two in one place the pre-empted one, then the one that was read first. -/
def waitsBefore (a b : Nat × Launch) : Bool :=
  decide (a.2.cls < b.2.cls) ||
    (a.2.cls == b.2.cls && (decide (arrivalNo a < arrivalNo b) ||
      (arrivalNo a == arrivalNo b && ((a.2.phase == .preempted && b.2.phase != .preempted) ||
        ((a.2.phase == .preempted) == (b.2.phase == .preempted) && decide (a.1 < b.1))))))

/-- The launch waits to be placed. -/
def State.waitsPlace (s : State) (e : Nat × Launch) : Bool :=
  e.2.phase == .waiting && !e.2.barrier && !e.2.empty && s.ordOk e.1 e.2

/-- The groups of a launch that its save records hold. -/
def Launch.savedGroups (l : Launch) : List Group := l.groups.filter (fun g => l.saved.any (fun e => e.1 == g.core))

/-- The cores that a saved group left are mapped and free for it, its functions ready, and the twin holds no launch of another owner
(R206, R372, R383). -/
def State.groupFits (s : State) (l : Launch) (g : Group) : Bool :=
  let img := ((l.saved.find? (fun e => e.1 == g.core)).map (·.2)).getD {}
  s.cluReady g.clu && s.groupStack g.clu &&
    img.chans.all (fun c => bitOf (s.die (dieOfClu g.clu)).ready.toNat (20 + c.2.engine)) &&
    g.cores.all (fun k => (s.core k).launch.isNone && (s.clu g.clu).pc (physOfCore k) == 0) &&
    (g.twin.isSome || s.twinOk g.clu g.logical l.owner)

/-- The cores of a pre-empted launch are free for it (R383). -/
def State.canResume (s : State) (l : Launch) : Bool :=
  l.phase == .preempted && !l.saved.isEmpty && l.savedGroups.all (s.groupFits l)

/-- No launch that waits ahead of this one could be placed or resumed now. One whose own launch processor is not at work holds back none
(R422). -/
def State.itsTurn (s : State) (e : Nat × Launch) : Bool :=
  s.launches.all (fun o => !(waitsBefore o e) || !(s.lpReady o.2.die)
    || !((s.waitsPlace o && (s.placement o.2).isSome) || s.canResume o.2))

/-- What a launch hands on to its shares: what it took from its queue, and its class (R386, R400). -/
def Launch.rights (l : Launch) : QueueRights := { owner := l.owner, root := l.root, priv := l.priv, devmask := l.devmask, cls := l.cls }

/-- launchPlace (R369, R372): the groups of a waiting launch are placed at once and its contexts start; the shares of other devices
are forwarded (R386). -/
def State.launchPlace (s : State) (n : Nat) : State :=
  let l := s.launch n
  if !(s.lpReady l.die) || !(s.waitsPlace (n, l)) || !(s.itsTurn (n, l)) || s.sectionWaits l then s
  else match s.placement l with
  | none => s
  | some (gs, _) =>
    let s := (s.startAcquire l).abortFor gs
    let devs := if l.origin.isSome then []
      else (((List.range 64).filter (fun d => bitOf l.devmask d)).take l.ndev).filter (· != Config.devId)
    let s := devs.foldl (fun a d => a.sendOrbit (.share d Config.devId n l.die l.q l.rights l.packet)) s
    let s := s.setLaunch n { l with
      phase := .running, groups := gs, placedAt := s.time, placedNo := s.nextPlace, energy := 0, shares := devs, expired := false }
    let r := { s with nextPlace := s.nextPlace + 1 }.sectionBytes l
    gs.foldl (fun a g => a.startGroup n l r.2 g) r.1

/-! ### The end of a core group and of a launch (R143, R369, R384) -/

/-- No transfer of the core is under way, and no encoder command waits or has still to write. -/
def State.coreQuiet (s : State) (core : Nat) : Bool :=
  let c := s.clu (cluOfCore core)
  s.xfers.all (fun x => x.2.core != core) && c.enc.all (fun e => e.core != core) && c.encOut.all (fun w => w.1 != core)

/-- coreGroupEnd (R143): every context has halted, the queues are empty and the transfers done, and no promote-acquire waits; the kernel-end
release follows (R274). -/
def State.coreGroupEnd (s : State) (core : Nat) : State :=
  let k := s.core core
  if k.launch.isSome && !k.groupDone && !k.ctxs.isEmpty && k.allHalted && k.mq.isEmpty && k.eq.isEmpty && k.mrun.isNone && k.promos.isEmpty
      && s.coreQuiet core then
    (s.kernelEndRelease core).modCore core (fun k => { k with groupDone := true, run := none })
  else s

/-- A core of a launch that has ended is free; its rows are discarded (R306), and what its contexts held stands until the next launch
(R443). -/
def Core.free (k : Core) : Core :=
  { k with run := none, launch := none, chans := [], comps := [], sa := [], groupDone := false, frozen := none, stalled := false
           twin := none, granted := false }

/-- The upper twin of a tidelocked group as the group leaves it: it has done what the lower twin did, collisions of results included (R33,
R44), and has its own stores (R45). -/
def Core.mirror (up k : Core) : Core :=
  let t := k.twin.getD k.stores
  { up with ctxs := k.ctxs, tiles := t.tiles, tileMarks := t.tileMarks, scratch := t.scratch, scratchPoison := t.scratchPoison
            sconf := up.upperConf k }

/-- The cores that a group of launch n still holds are free. -/
def State.freeGroup (n : Nat) (s : State) (g : Group) : State :=
  let k := s.core g.core
  let s := if k.launch = some n then s.setCore g.core k.free else s
  match g.twin with
  | some up => if (s.core up).launch = some n then s.modCore up (fun u => (u.mirror k).free) else s
  | none => s

/-- Every core that a launch still holds is free. -/
def State.freeCores (s : State) (n : Nat) : State := (s.launch n).groups.foldl (State.freeGroup n) s

/-- The launch's own part has ended: its groups on this device, and its shares on others. -/
def State.launchOver (s : State) (n : Nat) (l : Launch) : Bool :=
  if l.empty then
    (l.phase == .running || (l.phase == .waiting && !l.barrier && s.ordOk n l))
  else
    (l.phase == .running || l.phase == .stopping || (l.phase == .preempted && l.saved.isEmpty)) && l.shares.isEmpty &&
      s.cores.all (fun c => c.2.launch != some n || c.2.groupDone)

/-- launchComplete (R369 to R371). What a lost die has read is not completed, but for the end that a survivor makes of it (R423). -/
def State.launchComplete (s : State) (n : Nat) : State :=
  let l := s.launch n
  if (!(s.die l.die).fenced || l.noSignal) && s.launchOver n l && !(s.signalWaits l) then
    let s := if l.phase = .waiting then s.startAcquire l else s
    (s.freeCores n).finishPacket n l l.status
  else s

/-! ### Priority and energy (R376 to R379) -/

/-- QUANTUM of a class on a die, in microseconds (R378). -/
def Die.quantumOf (d : Die) (cls : Nat) : Nat := 10 * fld d.quantum.toNat (16 * cls + 15) (16 * cls)

/-- The launch has run for the quantum of the class it has now, which is not 0 (R377, R378). -/
def State.quantumRan (s : State) (l : Launch) : Bool :=
  let q := (s.die l.die).quantumOf l.cls
  decide (q ≠ 0) && decide (l.placedAt + q ≤ s.time)

/-- quantumExpiry (R377): a running launch reaches its class's quantum. -/
def State.quantumExpiry (s : State) (n : Nat) : State :=
  let l := s.launch n
  if l.phase = .running ∧ !l.groups.isEmpty ∧ s.quantumRan l then s.modLaunch n (fun l => { l with expired := true }) else s

/-- energyBudgetExceeded (R379): the launch that has the budget, with what its shares have reported, falls one class, on every device; a
share reports what it has been charged. (DEDUCED, log entry 53.) -/
def State.energyExceeded (s : State) (n : Nat) : State :=
  let l := s.launch n
  if l.origin.isSome then s.reportEnergy n l
  else if l.ebudget ≠ 0 ∧ l.ebudget * Config.unitsPerMillijoule < l.energy then
    let s := l.shares.foldl (fun a d => a.sendOrbit (.shareClass d Config.devId n (min 3 (l.cls + 1)))) s
    s.modLaunch n (fun l => { l with cls := min 3 (l.cls + 1), energy := 0 })
  else s

/-! ### Pre-emption and resumption (R377, R381 to R383) -/

/-- Bytes of one core group's save record (R382). -/
def Core.recordBytes (k : Core) : Nat :=
  roundUp (262144 + 8192 + k.scratchSize + (k.sa.filter (fun r => r.2.valid)).foldl (fun a r => a + imageSize 0 r.2.len 0) 0) 4096

/-- The groups of a launch that hold their cores, those of a core under test apart: a test holds a core once its group has ended. -/
def State.heldGroups (s : State) (n : Nat) (l : Launch) : List Group :=
  l.groups.filter (fun g => (s.core g.core).launch == some n && ((s.clu g.clu).tstate == .draining || !((s.clu g.clu).underTest (physOfCore g.core))))

/-- Bytes of the records of a running launch. -/
def State.recordsBytes (s : State) (n : Nat) (l : Launch) : Nat := (s.heldGroups n l).foldl (fun a g => a + (s.core g.core).recordBytes) 0

/-- The first place of a queue's save region above every record in use, or that a launch which is stopping will use. -/
def State.saveFree (s : State) (die q : Nat) : Nat :=
  s.launches.foldl (fun a e =>
    if ((e.2.phase = .preempted ∧ !e.2.saved.isEmpty) ∨ e.2.phase = .stopping) ∧ e.2.die = die ∧ e.2.q = q then max a (e.2.saveAt + e.2.saveLen)
    else a) 0

/-- The launch's records fit its save region. -/
def State.recordsFit (s : State) (n : Nat) (l : Launch) : Bool :=
  decide (s.saveFree l.die l.q + s.recordsBytes n l ≤ (s.die l.die).savelen l.q)

/-- Launches that waiting launch w may pre-empt (R377). -/
def State.victims (s : State) (w : Launch) : List (Nat × Launch) :=
  s.launches.filter (fun r => r.2.phase == .running && !r.2.groups.isEmpty && r.2.status == 0 && s.recordsFit r.1 r.2 &&
    (decide (w.cls < r.2.cls) || (r.2.cls == w.cls && r.2.expired && s.quantumRan r.2)))

/-- Victims in the order of R377: numerically greatest class first, then the longest run. -/
def insertVictim (v : Nat × Launch) : List (Nat × Launch) → List (Nat × Launch)
  | [] => [v]
  | u :: t =>
    if u.2.cls < v.2.cls ∨ (u.2.cls = v.2.cls ∧ v.2.placedAt < u.2.placedAt) then v :: u :: t else u :: insertVictim v t

/-- The choices of k members of a list, earlier members first. -/
def choose {α : Type} : Nat → List α → List (List α)
  | 0, _ => [[]]
  | _ + 1, [] => []
  | k + 1, a :: t => (choose k t).map (a :: ·) ++ choose (k + 1) t

/-- The launch could be placed once these launches, and those that are stopping, had left their cores; their channels stay bound
(R383). -/
def State.placeableWithout (s : State) (w : Launch) (vs : List (Nat × Launch)) : Bool :=
  let gone := vs ++ s.launches.filter (fun v => v.2.phase == .stopping)
  ((gone.foldl (fun a v => a.freeCores v.1) s).placementBeside s.boundEngines w).isSome

/-- The records of these launches fit the save regions of their queues together (R382). -/
def State.recordsFitAll (s : State) (vs : List (Nat × Launch)) : Bool :=
  vs.all (fun v =>
    let mine := vs.filter (fun u => u.2.die == v.2.die && u.2.q == v.2.q)
    decide (mine.foldl (fun a u => a + s.recordsBytes u.1 u.2) (s.saveFree v.2.die v.2.q) ≤ (s.die v.2.die).savelen v.2.q))

/-- The launches that waiting launch w pre-empts: the fewest that let it be placed, none beyond those that are stopping if they suffice. -/
def State.chosenVictims (s : State) (w : Launch) : List Nat :=
  let vs := (s.victims w).foldl (fun a v => insertVictim v a) []
  ((((List.range (vs.length + 1)).map (fun k => choose k vs)).flatten.find? (fun c => s.recordsFitAll c && s.placeableWithout w c)).getD
    []).map (·.1)

/-- The launch must be pre-empted: for a waiting one (R377), or because the device stops (R428, R432). -/
def State.mustPreempt (s : State) (n : Nat) (l : Launch) : Bool :=
  let before (o : Nat × Launch) : Bool :=
    (o.2.phase == .running || o.2.phase == .stopping) && !o.2.groups.isEmpty &&
      (decide (o.2.cls < l.cls) || (o.2.cls == l.cls && decide (o.2.placedNo < l.placedNo)))
  if s.hardTrip || s.susp == .suspending then s.launches.all (fun o => !(before o))
  else s.launches.any (fun w =>
    s.lpReady w.2.die && s.waitsPlace w && (s.placement w.2).isNone && s.itsTurn w && (s.chosenVictims w.2).contains n)

/-- Bundle issue stops on the cores of a launch (R381 step 1). -/
def State.stopIssue (s : State) (n : Nat) (l : Launch) : State := (s.heldGroups n l).foldl (fun a g => a.freeze g.core .stop) s


/-- Nothing pending keeps a save from being made (R381 steps 2 and 3), and its records have their place (R438). -/
def State.quiet (s : State) (n : Nat) (l : Launch) : Bool :=
  (s.heldGroups n l).all (fun g => s.coreQuiet g.core && (s.core g.core).promos.isEmpty)
    && s.regionReady ((s.die l.die).savebase l.q + l.saveAt) l.saveLen

/-- The image that a core group's save record keeps (R381): results in shadow buffers, their data awaited, latches zero.
(DEDUCED, log entry 25.) -/
def Core.image (k : Core) : Core :=
  let sh (c : Ctx) : Ctx :=
    let c := { c with shadow := c.shadow ++ toShadow c.flight, flight := [] }
    c.arrive (fun _ => true)
  { k with ctxs := k.ctxs.map (fun e => (e.1, sh e.2)), latches := [], l1 := [], frozen := none }

/-- What a physical core keeps when a launch leaves it: tiles, scratchpad, generations, counters, request, and its cycle count.
(DEDUCED, log entry 26.) -/
def Core.vacate (k : Core) : Core :=
  { k.free with ctxs := [], mq := [], eq := [], mrun := none, marks := [], latches := [], l1 := [] }

/-- The valid profile slots that a core wrote, with the table entries their records name (R206). -/
def Pair.slotsOf (p : Pair) (core : Nat) : Sp PSlot × Sp (BitVec 16) :=
  let sl := p.slots.filter (fun e => e.2.valid && e.2.writer == core)
  let named := (sl.filter (fun e => prTable e.2.record)).flatMap (fun e =>
    (List.range (2 ^ prL e.2.record)).map (prTbase e.2.record + ·))
  (sl, named.foldl (fun m i => Sp.put m i (Sp.get 0 p.dtab i)) [])

/-- The members of a launch's core in the phasers of its cluster and die take other core numbers. -/
def State.renameMembers (s : State) (core : Nat) (f : Nat → Nat) : State :=
  (s.livePhasers core).foldl (fun a k => a.setPhaser k ((a.phaser k).rename f)) s

/-- The header of a save record at physical address a (R382). -/
def State.recordHeader (s : State) (a id bytes seq : Nat) : State :=
  let mark := seq ^^^ 0x5A5A000000000000
  s.agentStore 0 (cellsAt a (bytesOf 8 (id * 2 ^ 32 + bytes) ++ bytesOf 8 seq ++ List.replicate 40 0 ++ bytesOf 8 mark))

/-- n bytes at physical address a take values that the manual leaves to the device (log entry 15). -/
def State.writeOwnLayout (s : State) (a n : Nat) : State :=
  let s' := s.agentStore 0 (cellsAt a ((List.range n).map (fun i => Config.imageByte (s.freeCtr + i))))
  { s' with freeCtr := s'.freeCtr + n }

/-- Everything on its way from and to the core of a group arrives, before any core of the launch is saved (R381 steps 3 and 5). -/
def State.settleGroup (s : State) (g : Group) : State := (s.kernelEndRelease g.core).flushSaTo g.core

/-- One core group is saved (R381): its image, which holds the stores of both twins of a tidelocked group (R45, R319), slots and phaser
memberships; its record, the header with MARK last. -/
def State.saveGroup (s : State) (n : Nat) (l : Launch) (a : Nat) (g : Group) : State :=
  let img := (s.core g.core).image
  let sl := (s.pair (pairKey g.clu g.logical)).slotsOf g.core
  let s := (s.writeOwnLayout (a + 64) (img.recordBytes - 64)).recordHeader a l.launchId img.recordBytes (l.seq + 1)
  let s := s.renameMembers g.core (fun c => if c = g.core then parkCore n g.core else c)
  let s := s.modLaunch n (fun l => { l with saved := l.saved ++ [(g.core, img)], savedSlots := l.savedSlots ++ [(g.core, sl)] })
  let s := match g.twin with
    | some up => s.modCore up (fun u => (u.mirror (s.core g.core)).vacate)
    | none => s
  s.modCore g.core Core.vacate

/-- Every core group of a launch is saved, its records one after another from `a` on. -/
def State.saveGroups (n : Nat) (l : Launch) : List Group → Nat → State → State
  | [], _, s => s
  | g :: t, a, s =>
    let b := (s.core g.core).recordBytes
    State.saveGroups n l t (a + b) (s.saveGroup n l a g)

/-- The lines of save records reach the memory behind the L2, where they outlast the compute dies (R429). -/
def State.recordsHome (s : State) (a n : Nat) : State :=
  (s.l2.map (·.1)).foldl (fun t i => if a ≤ i * 128 ∧ i * 128 < a + n then t.l2CleanLine i else t) s

/-- The launch is saved and off its cores. -/
def State.saveLaunch (s : State) (n : Nat) : State :=
  let l := s.launch n
  let gs := s.heldGroups n l
  let s := gs.foldl State.settleGroup s
  let at_ := (s.die l.die).savebase l.q + l.saveAt
  let s := (State.saveGroups n l gs at_ s).recordsHome at_ l.saveLen
  let s := s.modLaunch n (fun l => { l with phase := .preempted, seq := l.seq + 1, expired := false })
  s.freeCores n

/-- The launch begins to stop, its place in the save region and in the order of arrival taken. -/
def State.beginStop (s : State) (n : Nat) (l : Launch) : State :=
  (s.stopIssue n l).modLaunch n (fun l => { l with
    phase := .stopping, saveAt := s.saveFree l.die l.q, saveLen := s.recordsBytes n l, heldNo := s.nextLaunch })

/-- preemption (R381): issue stops, and once everything pending has come the launch is saved. A launch whose records do not fit is
left alone, or killed when the device stops (R382, R428). -/
def State.preempt (s : State) (n : Nat) : State :=
  let l := s.launch n
  if l.groups.isEmpty ∨ l.status ≠ 0 then s
  else if l.phase = .stopping then (if s.quiet n l then s.saveLaunch n else s)
  else if l.phase = .running ∧ s.mustPreempt n l then
    if s.recordsFit n l then
      let s := s.beginStop n l
      if s.quiet n (s.launch n) then s.saveLaunch n else s
    else if s.hardTrip ∨ s.susp = .suspending then s.killLaunch n 32
    else s
  else s

/-- The cycles that a core counts rise by d, and with them what its queues and its array wait for. -/
def Core.later (k : Core) (d : Nat) : Core :=
  { k with
    now := k.now + d, idle := k.idle + d, mfree := k.mfree + d, efree := k.efree + d, mwin := k.mwin + d
    mq := k.mq.map (fun e => { e with cyc := e.cyc + d }), eq := k.eq.map (fun e => { e with cyc := e.cyc + d }) }

/-- A core group's image returns to its core, which keeps what is the physical core's own; the time away is an even number of cycles
(R36, R383). -/
def Core.restore (k img : Core) : Core :=
  { img.later ((k.now - img.now + 1) / 2 * 2) with
    gen := k.gen, drained := k.drained, log := k.log, reqsAcked := k.reqsAcked, ovfd := k.ovfd, drain := k.drain, preqs := k.preqs
    replay := k.replay, sconf := k.sconf, confs := k.confs, req := k.req, l1 := [], granted := false }

/-- One core group resumes (R383): slots, image, phaser memberships, and the DEV acquire. -/
def State.resumeGroup (s : State) (n : Nat) (l : Launch) (g : Group) : State :=
  let img := ((l.saved.find? (fun e => e.1 == g.core)).map (·.2)).getD {}
  let sl := ((l.savedSlots.find? (fun e => e.1 == g.core)).map (·.2)).getD ([], [])
  let s := s.modPair (pairKey g.clu g.logical) (fun p =>
    let p := p.ownerChange l.owner
    { p with
      slots := sl.1.foldl (fun m e => Sp.put m e.1 e.2) p.slots, dtab := sl.2.foldl (fun m e => Sp.set 0 m e.1 e.2) p.dtab
      mode := if l.tidelocked then 1 else 0 })
  let s := g.cores.foldl (fun a k => (a.flushL1 k).acquire k 3) s
  let s := s.modCore g.core (fun k => { k.restore img with prevOwner := some l.owner })
  let s := s.renameMembers g.core (fun c => if c = parkCore n g.core then g.core else c)
  let conf := (s.core g.core).confs
  match g.twin with
  | some up => s.modCore up (fun k =>
      { k.asTwin with launch := some n, logical := g.logical + 1, prevOwner := some l.owner, l1sz := img.l1sz, confAt := conf })
  | none => s

/-- resumption (R383): a pre-empted launch is placed on the cores it left, and goes on; in its turn, but for a RESUME, which brings every one
back before a queue is read or a launch placed (R435). -/
def State.resume (s : State) (n : Nat) : State :=
  let l := s.launch n
  let may := s.canResume l && (s.susp == .resuming || (s.lpReady l.die && s.itsTurn (n, l)))
  if may then
    let s := l.savedGroups.foldl (fun a g => a.resumeGroup n l g) s
    { s with nextPlace := s.nextPlace + 1 }.modLaunch n (fun l => { l with
      phase := .running, saved := [], savedSlots := [], placedAt := s.time, placedNo := s.nextPlace, expired := false })
  else s

end Sys2Proof.Machine
end

