-- ==== Sys2Proof/Machine/Device.lean ====
section
/-! DEFINITION. The device as a whole: the test controller's outcomes and the configuration image (R155, R156, R436, R437), errors
and scrubbing (R409, R415, R416), heartbeats and failover (R420 to R424), power and heat (R385, R425 to R429), suspension (R431 to
R435), bring-up (R438, R439, R61), the host (R388, R389) and Orbit (R386, R434). -/

namespace Sys2Proof.Machine

/-- The event vector of the device (R391). -/
def State.eventVec (s : State) : State := s.sendVec 2047

/-! ### The test controller (R155, R156, R441) -/

/-- A command of TESTCTL: the written value with CMD `cmd`. (DEDUCED, log entry 45.) -/
def State.testCommand (s : State) (clu cmd : Nat) (v : Dw) : State :=
  s.testctlWrite clu (BitVec.ofNat 64 (v.toNat / 8 * 8 + cmd))

/-- A pre-empted launch holds this core for a test (R381). -/
def State.parkedOn (s : State) (core : Nat) : Bool :=
  s.launches.any (fun l => l.2.phase == .preempted && l.2.savedGroups.any (fun g => g.cores.contains core))

/-- The last context of a core has ended, and no pre-empted launch has still to come back to it. -/
def State.coreEnded (s : State) (core : Nat) : Bool :=
  !(s.parkedOn core) && (match (s.core core).launch with
    | none => true
    | some n =>
      match (s.launch n).groups.find? (fun g => g.cores.contains core) with
      | some g => (s.core g.core).launch != some n || (s.core g.core).groupDone
      | none => (s.core core).groupDone)

/-- The core that drains has ended its last context: it is held. A launch that has left its cores goes on holding them (R381). -/
def State.testDrained (s : State) (clu : Nat) : State :=
  let c := s.clu clu
  if c.tstate = .draining ∧ s.coreEnded (Cluster.testCore clu c) then s.setClu clu { c.setPc c.tcore 3 with tstate := .held }
  else s

/-- The controller retires the core under test (R156 steps 1 and 2). (DEDUCED, log entry 65.) -/
def Cluster.retire (c : Cluster) : Cluster :=
  let named := c.logicalOf c.tcore
  let c := c.setPc c.tcore 2
  match named with
  | none => c
  | some n => if c.pc 16 = 1 then (c.setPc 16 0).setEntry n 16 else c.setEntry n 31

/-- The end of the pattern: TESTSIG, and a pass or a fail. -/
def Cluster.patternEnd (c : Cluster) (sig : Dw) : Cluster :=
  let c := { c with sig := sig, runs := c.runs + 1, elapsed := 200 }
  if sig = c.exp then { c with tstate := .pass } else { c.retire with tstate := .fail, repair := true }

/-- testPatternComplete: the 200 µs have passed. The tested core has lost what it held. (DEDUCED, log entry 48.) -/
def State.patternDone (s : State) (clu : Nat) : State :=
  let c := s.clu clu
  if c.tstate = .running ∧ c.tstart + 200 ≤ s.time then
    let c' := c.patternEnd (Config.scanSignature clu c.tcore c.runs)
    let s := (s.resetCore (Cluster.testCore clu c)).setClu clu c'
    if c'.tstate = .fail then s.eventVec else s
  else s

/-- PCSTATE as the image records it: a held core in the state it had before HOLD (R437). -/
def Cluster.imagePc (c : Cluster) : Dw := if c.pc c.tcore = 3 then c.giveBack.pcstate else c.pcstate

/-- The 32 bytes of a cluster's core-map record (R437). -/
def ImageRec.bytes (i : ImageRec) (clu : Nat) : List Byte :=
  let b := bytesOf 2 1 ++ bytesOf 1 (dieOfClu clu % 4) ++ bytesOf 1 (clu % 16) ++ bytesOf 4 i.seq
    ++ bytesOf 8 (i.pcstate.toNat % 2 ^ 34) ++ bytesOf 10 (i.lo.toNat % 2 ^ 60 + i.hi.toNat % 2 ^ 20 * 2 ^ 60) ++ bytesOf 2 0
  b ++ bytesOf 4 (crc32c b)

/-- The record of a cluster, and the sum of the records' SEQ (R437, R438). -/
def Image.record (i : Image) (clu : Nat) : ImageRec := Sp.get {} i.recs clu
def Image.seqSum (i : Image) : Nat := (List.range 64).foldl (fun a c => a + (i.record c).seq) 0
/-- The image is valid (R438): its signature and every record CRC check. -/
def Image.valid (i : Image) : Bool := i.signed && i.badCrc.isEmpty

/-- An image of the flash, and the place of the valid one with the higher SEQ sum: the first of two that are equal (DESIGN CHOICE, log
entry 94). -/
def State.flashImage (s : State) (k : Nat) : Image := Sp.get {} s.flash k
def State.pickImage (s : State) : Option Nat :=
  let a := s.flashImage 0
  let b := s.flashImage 1
  if a.valid then (if b.valid && decide (a.seqSum < b.seqSum) then some 1 else some 0)
  else if b.valid then some 1 else none

/-- configImageRewrite (R436): the firmware writes a new signed image, in place of the one that is not the newest (DESIGN CHOICE, log entry
109), with the record of a cluster that a repair record waits for. -/
def State.imageRewrite (s : State) (clu : Nat) : State :=
  let c := s.clu clu
  if c.repair then
    let i := s.image.getD {}
    let i : Image := { i with
      signed := true, badCrc := []
      recs := Sp.put i.recs clu { lo := c.cmapLo, hi := c.cmapHi, pcstate := c.imagePc, seq := (i.record clu).seq + 1 } }
    { s.setClu clu { c with repair := false } with flash := Sp.put s.flash (1 - s.pickImage.getD 1) i, image := some i }
  else s

/-! ### Errors (R409, R412, R415, R416) -/

def State.addCe (s : State) (die : Nat) : State := s.modDie die (fun d => { d with ce := min 0xFFFFFFFF (d.ce + 1) })
def State.addUe (s : State) (die : Nat) : State := s.modDie die (fun d => { d with ue := min 0xFFFF (d.ue + 1) })

/-- A granule of HBM becomes poisoned. -/
def State.markGranule (s : State) (g : Nat) : State :=
  let g := paNorm (32 * g) / 32
  if !(isHbm (32 * g)) || s.poison.contains g then s
  else { s with poison := addMark s.poison g }.addUe (stackOf (32 * g) / 4)

/-- A granule of a line in the L2 becomes poisoned, counted on the die of its slice. -/
def State.markL2 (s : State) (g : Nat) : State :=
  let g := paNorm (32 * g) / 32
  match Sp.find? s.l2 (g / 4) with
  | none => s
  | some l => if markBit l.marks (g % 4) then s else (s.homeMark true g).addUe (l2Slice (g / 4) / 64)

/-- A granule of a line in a core's L1 becomes poisoned. -/
def State.markL1 (s : State) (core g : Nat) : State :=
  match (s.core core).l1Line? (g / 4) with
  | none => s
  | some l =>
    if dirtyOf l.valid (g % 4) = 0 ∨ markBit l.marks (g % 4) then s
    else (s.modCore core (fun k => k.setL1 (g / 4) { l with marks := markPut l.marks (g % 4) true })).addUe (dieOfCore core)

/-- The lower twin of the tidelocked group whose upper twin a core is. -/
def State.lowerOf (s : State) (core : Nat) : Option Nat :=
  match s.launchOf core with
  | none => none
  | some l => (l.groups.find? (fun g => g.twin == some core)).map (·.core)

/-- A core with its own stores: those of an upper twin stand beside its lower twin's (R45). -/
def State.ownCore (s : State) (core : Nat) : Core :=
  match s.lowerOf core with
  | none => s.core core
  | some lo => match (s.core lo).twin with
    | some t => (s.core lo).asUpper t
    | none => s.core lo

/-- A change of a core's own stores, and of no twin's. -/
def State.modOwn (s : State) (core : Nat) (f : Core → Core) : State :=
  match s.lowerOf core with
  | none => s.modCore core f
  | some lo => s.modCore lo (fun k => { k with twin := k.twin.map (fun t => (f (k.asUpper t)).stores) })

/-- poisonMark (R409, R320): an error in a row's header strikes the segment that is not valid too. An error in one twin's scratchpad, segment
or tile strikes that twin alone (R45). -/
def State.poisonAt (s : State) (p : PoisonPlace) : State :=
  match p with
  | .mem g => s.markGranule g
  | .l2 g => s.markL2 g
  | .l1 core g => s.markL1 core g
  | .scratch core g =>
    let own := s.ownCore core
    if own.scratchPoison.contains g || decide (own.scratchSize ≤ 32 * g) then s
    else (s.modOwn core (fun k => { k with scratchPoison := addMark k.scratchPoison g })).addUe (dieOfCore core)
  | .segment core row =>
    let r := Sp.get {} (s.ownCore core).sa row
    if r.poison || decide (256 ≤ row) then s
    else (s.modOwn core (fun k => { k with sa := Sp.put k.sa row { r with poison := true } })).addUe (dieOfCore core)
  | .tileRow core t i =>
    let m := Sp.get 0 (s.ownCore core).tileMarks t
    if decide (t < 8) && decide (i < 16) && !(bitOf m.toNat i) then
      (s.modOwn core (fun k => { k with tileMarks := Sp.set 0 k.tileMarks t (m ||| BitVec.ofNat 16 (2 ^ i)) })).addUe (dieOfCore core)
    else s

/-- The stacks are in retention self-refresh (R429, R432). -/
def State.retention (s : State) : Bool := s.powerOff || s.susp == .suspended

/-- One granule as the scrubber finds it; a correction writes it whole (R411, R416). -/
def State.scrub1 (die : Nat) (s : State) (e : Nat × ScrubResult) : State :=
  let g := paNorm (32 * e.1) / 32
  if !(isHbm (32 * g)) || decide (stackOf (32 * g) / 4 ≠ die) then s
  else match e.2 with
  | .clean => s
  | .correctable => { s with poison := setMark s.poison g false }.addCe die
  | .uncorrectable => s.markGranule g

/-- scrubRow: values never change (R416). -/
def State.scrub (s : State) (die : Nat) (gs : List (Nat × ScrubResult)) : State :=
  if s.retention then s else gs.foldl (State.scrub1 die) s

/-! ### Heartbeats and failover (R420 to R424) -/

/-- A die is declared lost or has stopped. -/
def State.dieDown (s : State) (die : Nat) : Bool := (s.die die).fenced || (s.die die).stopped

/-- Die `from_` has heard from die d. -/
def Die.hear (x : Die) (d : Nat) : Die := { x with heard := x.heard ||| BitVec.ofNat 4 (2 ^ d) }

/-- heartbeatSend (R422, R424): BEAT rises, and every die that does not ignore the sender hears it. -/
def State.heartbeat (s : State) (die : Nat) : State :=
  if s.powerOff || (s.die die).stopped then s
  else
    let s := s.modDie die (fun d => { d with beat := (d.beat + 1) % 2 ^ 32 })
    if (s.die die).fenced then s
    else [0, 1, 2, 3].foldl (fun a d => if d = die then a else a.modDie d (fun x => x.hear die)) s

/-- Where the failover table stands (R420). -/
def State.foBase (s : State) : Nat := fld s.fotab.toNat 51 12 * 4096
def State.foEn (s : State) : Bool := bitOf s.fotab.toNat 8

/-- A dword stored by hardware at its home. -/
def State.homeStoreDw (s : State) (pa n v : Nat) : State := s.homeStore (dwCells pa n v)

/-- FAILED is set in one table entry whose PRIMARY is the lost die (R421, R423 step 1). -/
def State.failEntry (lost : Nat) (s : State) (x : Nat) : State :=
  let a := s.foBase + 8 * x
  let e := s.homeDw a
  if bitOf e 7 ∧ fld e 1 0 = lost ∧ !(bitOf e 6) then s.homeStoreDw a 8 (e + 64) else s

/-- A LAUNCHID is appended to the lost-launch list (R421). -/
def State.listLost (s : State) (id : Nat) : State :=
  let a := s.foBase + 0x800
  let n := s.homeDw a
  let s := if n < 510 then s.homeStoreDw (a + 8 + 4 * n) 4 id else s
  s.homeStoreDw a 8 ((n + 1) % 2 ^ 64)

/-- The launch has, or had on resumption, a group on the die. -/
def Launch.touches (l : Launch) (die : Nat) : Bool := l.phase != .done && l.groups.any (fun g => dieOfCore g.core == die)

/-- One launch with a group on the lost die is ended (R423 step 2). -/
def State.endLost (lost : Nat) (s : State) (n : Nat) : State :=
  let l := s.launch n
  if l.touches lost then
    let s := (s.killLaunch n 32).modLaunch n (fun l => { l with noSignal := true })
    if s.foEn then s.listLost l.launchId else s
  else s

/-- What the cores of a die have on its engines, in their queues and caches and on the way from them is gone; nothing comes from them any
more. -/
def State.silence (s : State) (die : Nat) : State :=
  { s with
    xfers := s.xfers.filter (fun x => dieOfCore x.2.core != die)
    s2 := s.s2.filter (fun e => dieOfCore e.1 != die)
    saSteps := s.saSteps.filter (fun x => dieOfCore x.src != die)
    clusters := s.clusters.map (fun c => if dieOfClu c.1 = die then (c.1, { c.2 with enc := [], encOut := [] }) else c)
    cores := s.cores.map (fun c =>
      if dieOfCore c.1 = die then
        let k : Core := { c.2.discardQueues with
          frozen := some .stop, l1 := [], log := [], drain := none, chans := c.2.chans.map (fun h => (h.1, { h.2 with open_ := [] })) }
        (c.1, k)
      else c) }

/-- Cores frozen for this cause try again. -/
def State.unfreeze (s : State) (f : Freeze) : State :=
  { s with cores := s.cores.map (fun c => if c.2.frozen = some f then (c.1, { c.2 with frozen := none }) else c) }

/-- A die is declared lost: fenced, lost to every die, and the lowest surviving die acts (R422, R423). What waits for its stacks to report
waits no more. (DEDUCED, log entry 42.) -/
def State.loseDie (s : State) (lost : Nat) : State :=
  if (s.die lost).fenced then s
  else
    let s := s.modDie lost (fun d => { d with fenced := true, ready := 0 })
    let s := [0, 1, 2, 3].foldl (fun a d => a.modDie d (fun x => { x with lost := x.lost ||| BitVec.ofNat 4 (2 ^ lost) })) s
    let s := (s.silence lost).unfreeze .stackWait
    let s := if s.foEn then ((List.range (fld s.fotab.toNat 7 0 + 1)).foldl (State.failEntry lost) s).l2WriteBack else s
    ((s.launches.map (·.1)).foldl (State.endLost lost) s).eventVec

/-- One die's check of another: heard, a miss, or the third miss in a row. -/
def State.checkOne (die : Nat) (s : State) (d : Nat) : State :=
  let x := s.die die
  if d = die ∨ (s.die d).fenced then s
  else if bitOf x.heard.toNat d then s.setDie die { x with misses := Sp.set 0 x.misses d 0 }
  else
    let m := Sp.get 0 x.misses d + 1
    let s := s.setDie die { x with misses := Sp.set 0 x.misses d m }
    if 3 ≤ m then s.loseDie d else s

/-- heartbeatCheck (R422). -/
def State.heartCheck (s : State) (die : Nat) : State :=
  if s.powerOff || s.dieDown die then s
  else ([0, 1, 2, 3].foldl (State.checkOne die) s).modDie die (fun d => { d with heard := 0 })

/-- dieStopsAnswering. -/
def State.dieStops (s : State) (die : Nat) : State :=
  if s.dieDown die then s else ((s.modDie die (fun d => { d with stopped := true })).silence die).unfreeze .stackWait

/-- Data that never comes arrives poisoned after 100 µs (R423, R434). -/
def State.deadArrive (s : State) (core : Nat) : State :=
  s.modCore core (fun k => { k with
    ctxs := k.ctxs.map (fun c => (c.1, c.2.arrive (fun f => f.dead)))
    frozen := if k.frozen = some .data then none else k.frozen })

/-- lostDieAccessTimeout. -/
def State.lostTimeout (s : State) (core : Nat) : State := if [0, 1, 2, 3].any s.dieDown then s.deadArrive core else s
/-- suspendedDeviceAccessTimeout. -/
def State.suspTimeout (s : State) (core : Nat) : State := if s.peersSuspended ≠ 0 then s.deadArrive core else s

/-! ### Supply, current and heat (R385, R425 to R429) -/

def Die.island (d : Die) (i : Nat) : Island := Sp.get {} d.islands i
def State.modIsland (s : State) (die i : Nat) (f : Island → Island) : State :=
  s.modDie die (fun d => { d with islands := Sp.set {} d.islands i (f (d.island i)) })

/-- supplySag: an episode begins and is counted. -/
def State.sagBegins (s : State) (die i : Nat) : State :=
  if ((s.die die).island (i % 4)).sag then s
  else (s.modIsland die (i % 4) (fun x => { x with sag := true })).modDie die (fun d => { d with sags := min 0xFFFF (d.sags + 1) })

def State.sagEnds (s : State) (die i : Nat) : State := s.modIsland die (i % 4) (fun x => { x with sag := false })
/-- An excess of current begins, or ends (R426). -/
def State.ocBegins (s : State) (die i : Nat) : State :=
  s.modIsland die (i % 4) (fun x => if x.oc then x else { x with oc := true, ocAt := s.time })
def State.ocEnds (s : State) (die i : Nat) : State := s.modIsland die (i % 4) (fun x => { x with oc := false })

/-- The order of R385: class 3 first, then the most recently placed. (DEDUCED, log entry 46.) -/
def killsBefore (a b : Nat × Launch) : Bool :=
  decide (b.2.cls < a.2.cls) || (a.2.cls == b.2.cls && decide (b.2.placedNo < a.2.placedNo))

/-- The launch that the over-current emergency of a die kills: one that runs on the die. -/
def State.powerVictim (s : State) (die : Nat) : Option Nat :=
  match s.launches.filter (fun l => (l.2.phase == .running || l.2.phase == .stopping) && l.2.status == 0 && l.2.touches die) with
  | [] => none
  | l :: t => some (t.foldl (fun a x => if killsBefore x a then x else a) l).1

/-- The island's excess has lasted 100 µs since it began, or since the last kill for it (R426). -/
def Island.killDue (x : Island) (t : Nat) : Bool := x.oc && decide (x.ocAt + 100 ≤ t)

/-- overCurrentKill (R385, R426): one launch, for the first island whose excess has lasted 100 µs since it began or since the last kill for
it fell due. -/
def State.powerKill (s : State) (die : Nat) : State :=
  match [0, 1, 2, 3].find? (fun i => ((s.die die).island i).killDue s.time) with
  | none => s
  | some i =>
    let s := s.modIsland die i (fun x => { x with ocAt := x.ocAt + 100 })
    match s.powerVictim die with
    | none => s
    | some n => (s.killLaunch n 32).modDie die (fun d => { d with kills := min 0xFFFF (d.kills + 1) })

/-- The pairs of a supply island. -/
def islandPairs (die i : Nat) : List Nat := (List.range 32).map (fun k => (die * 16 + 4 * (i % 4)) * 8 + k)

/-- The island has come to 95 °C. -/
def Island.heat (x : Island) (t : Nat) : Island :=
  if x.hot then x else { x with soft := true, hot := true, recovering := false, turnAt := t }

/-- softTrip (R427). -/
def State.softBegins (s : State) (die i : Nat) : State := s.modIsland die (i % 4) (fun x => x.heat s.time)
/-- softTripRecovery (R427): the island is below 90 °C, and so at no trip (R430). -/
def State.softEnds (s : State) (die i : Nat) : State :=
  if ((s.die die).island (i % 4)).soft then
    s.modIsland die (i % 4) (fun x => { x with soft := false, hot := false, hard := false, recovering := true, turnAt := s.time })
  else s
/-- An island has cooled below 95 °C, where CEIL falls no more (R427), or below 105 °C (R430). -/
def State.coolSoft (s : State) (die i : Nat) : State := s.modIsland die (i % 4) (fun x => { x with hot := false, hard := false })
def State.coolHard (s : State) (die i : Nat) : State := s.modIsland die (i % 4) (fun x => { x with hard := false })

/-- A step of CEIL is due (R427): down every 1 ms at or above 95 °C, up every 10 ms after the recovery. -/
def Island.downDue (x : Island) (t : Nat) : Bool := x.hot && decide (x.turnAt + 1000 ≤ t)
def Island.upDue (x : Island) (t : Nat) : Bool := x.recovering && decide (x.turnAt + 10000 ≤ t)

/-- ceilStepDown (R427). -/
def State.ceilDown (s : State) (die i : Nat) : State :=
  if ((s.die die).island (i % 4)).downDue s.time then
    let s := (islandPairs die i).foldl (fun a p => a.ceilTo p ((a.pair p).ceil - 1)) s
    s.modIsland die (i % 4) (fun x => { x with turnAt := x.turnAt + 1000 })
  else s
/-- ceilStepUp (R427). -/
def State.ceilUp (s : State) (die i : Nat) : State :=
  if ((s.die die).island (i % 4)).upDue s.time then
    let s := (islandPairs die i).foldl (fun a p =>
      if (a.pair p).ceil < (a.pair p).ceilSet then a.ceilTo p ((a.pair p).ceil + 1) else a) s
    let more := (islandPairs die i).any (fun p => decide ((s.pair p).ceil < (s.pair p).ceilSet))
    s.modIsland die (i % 4) (fun x => { x with turnAt := x.turnAt + 10000, recovering := more })
  else s

/-- The checkpoint passes stop after the current page (R419). -/
def State.stopPasses (s : State) : State := s.ckpStop

/-- hardTrip (R428): at an island that has reached 105 °C, which is above the soft trip too, or on command. The
pre-emptions follow, each in its step. (DEDUCED, log entry 41.) -/
def State.hardBegins (s : State) (site : Option (Nat × Nat)) : State :=
  let s := match site with
    | some e => s.modIsland e.1 (e.2 % 4) (fun x => { x.heat s.time with hard := true })
    | none => s
  if s.hardTrip ∨ s.powerOff then s else { s with hardTrip := true, hardAt := s.time }.stopPasses.eventVec

/-- The launch's save records are complete and on the device's memory (R429). -/
def Launch.recorded (l : Launch) : Bool := l.phase == .preempted && !l.saved.isEmpty

/-- What outlasts the power of the compute dies: HBM with its marks, keys and complete save records, what lies behind the links, the flash
and the service die, the host's link, and what stands outside the machine. (DEDUCED, log entry 50.) -/
def State.lasting (s : State) : State :=
  { mem := s.mem, poison := s.poison, pageKeys := s.pageKeys, keys := s.keys, launches := s.launches.filter (fun l => l.2.recorded)
    clusters := s.clusters.map (fun c => (c.1, { repair := c.2.repair, runs := c.2.runs }))
    flash := s.flash, image := s.image, booted := s.booted
    sections := s.sections, nextLaunch := s.nextLaunch, nextPlace := s.nextPlace, nextXfer := s.nextXfer
    domain := s.domain, peersSuspended := s.peersSuspended, msix := s.msix, msixTable := s.msixTable, msixPend := s.msixPend
    msixOn := s.msixOn, msixMask := s.msixMask, bar2 := s.bar2, hostRead := s.hostRead, orbitOut := s.orbitOut
    focus := s.focus, agenda := s.agenda, time := s.time, freeCtr := s.freeCtr }

/-- powerOffTrip (R429): the compute dies lose power at once. A device that is suspended loses nothing (R433). -/
def State.powerOffNow (s : State) : State :=
  { (if s.susp = .suspended then s else s.lasting) with powerOff := true }

/-! ### Suspension (R431 to R435) -/

/-- Every launch is off its cores and every transfer has ended (R432 steps 1 to 3). -/
def State.allSaved (s : State) : Bool :=
  s.launches.all (fun l => l.2.groups.isEmpty || l.2.phase == .done || (l.2.phase == .preempted && !l.2.saved.isEmpty)) && s.xfers.isEmpty

/-- Every L1 and the L2 reach their homes; the L2 is invalid (R432 step 4). -/
def State.flushAll (s : State) : State := ((s.cores.map (·.1)).foldl State.flushL1 s).l2FlushAll

/-- The Orbit ports stop and save their sequence numbers (R432 step 5), and the compute dies are gated (step 7): READY falls, and what
the cores and the caches of translations held is lost. -/
def State.gate (s : State) : State :=
  { s with
    dies := s.dies.map (fun d => (d.1, { d.2 with ready := 0 }))
    orbitKept := (s.orbitTx, s.orbitRx), orbitTx := [], orbitRx := []
    cores := [], tlb := [], walks := [] }

/-- suspendComplete (R432 steps 3 to 7): the suspend image of 1 MiB at BASE (R431) is written, and reaches HBM. -/
def State.suspendDone (s : State) : State :=
  if s.susp = .suspending ∧ s.allSaved ∧ s.regionReady (s.suspBase * 4096) 1048576 then
    { (s.flushAll.writeOwnLayout (s.suspBase * 4096) 1048576).l2FlushAll.gate with susp := .suspended }.eventVec
  else s

/-- A pre-empted launch waits for functions to be ready again and for nothing else: it does not wait for another launch's end, be it on its
cores or on a twin that another owner holds (R206, R372). -/
def State.mustResume (s : State) (l : Launch) : Bool :=
  l.phase == .preempted && !l.saved.isEmpty &&
    l.savedGroups.all (fun g =>
      !(s.dieDown (dieOfClu g.clu)) && (g.twin.isSome || s.twinOk g.clu g.logical l.owner) &&
      g.cores.all (fun k => (s.core k).launch.isNone && (!(s.cluReady g.clu) || (s.clu g.clu).pc (physOfCore k) == 0)))

/-- resumeComplete (R435): the launch processors report ready and no launch has still to resume; the passes start on their ranges
again. -/
def State.resumeDone (s : State) : State :=
  let up := [0, 1, 2, 3].all (fun d => s.dieDown d || bitOf (s.die d).ready.toNat 32)
  if s.susp = .resuming ∧ up ∧ s.launches.all (fun l => !(s.mustResume l.2)) then
    { s with susp := .running, ckp := { s.ckp with pos := s.ckp.vbase } }.eventVec
  else s

/-! ### Bring-up (R61, R438, R439) -/

/-- deviceBoot (R438): the service die loads the valid image with the higher SEQ sum; no function is ready. Without a valid image none
ever is. After a power-off trip the compute dies are brought up again in the same way (DEDUCED, log entry 50). -/
def State.boot (s : State) : State :=
  if s.booted && !(s.powerOff && s.susp != .suspended) then s
  else { s.lasting with booted := true, image := s.pickImage.map s.flashImage }

/-- A cluster applies its part of the image: the running map and PCSTATE, whose reserved bits read 0 (R12, R153, R154), the spare rows and
CEIL of its pairs (R61, R437, R438). (DEDUCED, log entry 49.) -/
def State.applyImage (s : State) (i : Image) (clu : Nat) : State :=
  let r := i.record clu
  let bits (n : Nat) (x : Dw) : Dw := BitVec.ofNat 64 (x.toNat % 2 ^ n)
  let s := s.modClu clu (fun c => { c with cmapLo := bits 60 r.lo, cmapHi := bits 20 r.hi, pcstate := bits 34 r.pcstate })
  ((List.range 8).map (8 * clu + ·)).foldl (fun a p => (a.modPair p (fun x => { x with spareRow := Sp.find? i.rows p })).ceilSet p 7) s

/-- A function of a die applies its part of the image (R438): a cluster, a stack its repair data, a link its tuning. -/
def State.applyPart (s : State) (i : Image) (die k : Nat) : State :=
  if k < 16 then s.applyImage i (16 * die + k)
  else if 16 ≤ k ∧ k < 20 then s.modDie die (fun d => { d with repairs := Sp.put d.repairs (k - 16) (Sp.get 0 i.hbm (4 * die + (k - 16))) })
  else if 33 ≤ k then s.modDie die (fun d => { d with tuning := Sp.put d.tuning (k - 33) (Sp.get 0 i.links (6 * die + (k - 33))) })
  else s

/-- functionReady (R438, R439): bit k of READY of a die. Cores that wait for a stack try again, and messages that wait for a port leave. -/
def State.funcReady (s : State) (die k : Nat) : State :=
  match s.image with
  | none => s
  | some i =>
    if s.booted ∧ !s.powerOff ∧ die < 4 ∧ k < 39 ∧ !(s.dieDown die) ∧ (s.susp = .running ∨ s.susp = .resuming)
        ∧ !(bitOf (s.die die).ready.toNat k) then
      let s := (s.applyPart i die k).modDie die (fun d => { d with ready := d.ready ||| BitVec.ofNat 39 (2 ^ k) })
      if 16 ≤ k ∧ k < 20 then s.unfreeze .stackWait else if 33 ≤ k then s.orbitGo else s
    else s

/-- pairReset (R61, R205, R277, R405): a pair that no launch holds starts anew, with CEIL OP3 as in bring-up, also where its cluster has
reported ready (DESIGN CHOICE, log entry 107). (DEDUCED, log entry 43.) -/
def State.resetPair (s : State) (pair : Nat) : State :=
  if (s.pairHolders pair).isEmpty then
    let ks := s.pairCores pair
    ks.foldl State.resetCore (s.setPair pair {})
  else s

/-! ### The host (R387 to R390) -/

/-- An address that a host request may name: the device's HBM, or what lies behind the host link. -/
def hostMay (pa : Nat) : Bool := isHbm pa || paRegion pa == 1

/-- Bytes written by an agent outside the device, at their home slice, or behind a link at the memory itself. -/
def State.outerStore (s : State) (cs : Cells) : State :=
  if cs.any (fun c => paOff c.1) then s.uncStore cs else s.homeStore cs

/-- The host's own access to its memory (region 01) meets the device's L2 copies: CXL.cache holds them coherent (R390, R444). -/
def hostSeesL2 (pa : Nat) : Bool := paDev pa == Config.devId && paRegion pa == 1 && Config.cxlCache

/-- A byte as the host reads it, in an access at `pa`. -/
def State.hostByte (s : State) (pa : Nat) : Nat → Byte := if paOff pa && !(hostSeesL2 pa) then Memory.read s.mem else s.homeByte

/-- A write of the host at `pa`: without CXL.cache the device's L2 keeps its own copy of host memory. -/
def State.hostStore (s : State) (pa : Nat) (cs : Cells) : State :=
  if paOff pa && !(hostSeesL2 pa) then
    { s.memWrite cs with poison := clearMarks s.poison cs, tags := cs.foldl (fun m c => dropTag m c.1) s.tags }
  else s.outerStore cs

/-- Bytes that an agent outside the device reads at a home: those of one that does not answer are open (R423). -/
def State.outerBytes (s : State) (rd : Nat → Byte) (pa n : Nat) : List Byte :=
  if s.deadHome pa then (List.range n).map (fun i => Config.mixedKeyByte (s.freeCtr + i)) else readSeq rd pa n

/-- Free values that such a read has used. -/
def State.outerUsed (s : State) (pa n : Nat) : State := if s.deadHome pa then { s with freeCtr := s.freeCtr + n } else s

/-- A read or a write of the host at a physical address. It waits for a stack that is not ready (R438; DEDUCED, log entry 125). -/
def State.hostLoad (s : State) (pa n : Nat) : State :=
  if !(s.stackReady pa) then s
  else { s.outerUsed pa (min n 8) with
    hostRead := BitVec.ofNat 64 (natOfBytes (s.outerBytes (s.hostByte pa) pa (min n 8))) }
def State.hostWrite (s : State) (pa n v : Nat) : State :=
  if s.stackReady pa then s.hostStore pa (cellsAt pa (bytesOf (min n 8) v)) else s

/-- An access of 4 or 8 bytes, naturally aligned (R388). -/
def barAligned (off n : Nat) : Bool := (n == 4 || n == 8) && off % n == 0

/-- The pending bits of 64 vectors from 64i on. -/
def State.pendDw (s : State) (i : Nat) : Nat :=
  (List.range 64).foldl (fun a b => if s.msixPend.contains (64 * i + b) then a + 2 ^ b else a) 0

/-- A dword of BAR 4: the MSI-X table at 0, the pending-bit array at 0x8000 (R388). -/
def State.bar4Dw (s : State) (off : Nat) : Nat :=
  if off < 0x8000 then (s.msixDw (off / 8)).toNat else if off < 0x8100 then s.pendDw ((off - 0x8000) / 8) else 0

/-- Pending vectors that nothing masks any more are sent (R391). -/
def State.msixFlush (s : State) : State :=
  if !s.msixOn then s
  else
    let go := s.msixPend.filter (fun v => !(s.msixMasked v))
    { s with msixPend := s.msixPend.filter s.msixMasked, msix := go.reverse ++ s.msix }

/-- Enable and function mask of the MSI-X capability are set (R391). -/
def State.msixCap (s : State) (on mask : Bool) : State := { s with msixOn := on, msixMask := mask }.msixFlush

/-- A write of n bytes in BAR 4: the table takes it, the pending-bit array does not. (PRESUMED, log entry 92.) -/
def State.bar4Write (s : State) (off n v : Nat) : State :=
  if barAligned off n && decide (off < 0x8000) then
    { s with msixTable := Sp.put s.msixTable (off / 8) (BitVec.ofNat 64 (mergeBytes (s.msixDw (off / 8)).toNat (off % 8) n v)) }.msixFlush
  else s

/-- hostAccess: BAR 0 takes aligned accesses of 4 and 8 bytes, a notify register's too (R388). (DEDUCED, log entry 44; DEDUCED, log
entry 67.) -/
def State.hostReq (s : State) (r : HostReq) : State :=
  match r with
  | .barRead off n => { s with hostRead := s.region10Read off n }
  | .barWrite off n v => if barAligned off n then s.region10Write off n v.toNat else s
  | .bar2Read off n => if off + n ≤ s.bar2 then s.hostLoad (Config.devId * 2 ^ 46 + off) n else s
  | .bar2Write off n v => if off + n ≤ s.bar2 then s.hostWrite (Config.devId * 2 ^ 46 + off) n v.toNat else s
  | .bar4Read off n => if barAligned off n then { s with hostRead := BitVec.ofNat 64 (fld (s.bar4Dw off) (8 * (off % 8 + n) - 1) (8 * (off % 8))) } else s
  | .bar4Write off n v => s.bar4Write off n v.toNat
  | .memRead pa n => if hostMay pa then s.hostLoad pa n else s
  | .memWrite pa n v => if hostMay pa then s.hostWrite pa n v.toNat else s

/-! ### Orbit (R386, R431, R434) -/

/-- A read of another device at a home of this one: its value, and whether it is poisoned (R410). -/
def State.orbitRead (s : State) (pa n : Nat) : Nat × Bool :=
  if paReg pa then ((s.region10Read (pa % 2 ^ 44) n).toNat, false)
  else (natOfBytes (s.outerBytes s.uncByte pa n), s.deadHome pa || (if paOff pa then s.poison.contains (pa / 32) else s.homeMarked pa))

/-- A write of another device at a home of this one. -/
def State.orbitWrite (s : State) (pa n v : Nat) : State :=
  if paReg pa then s.region10Write (pa % 2 ^ 44) n v else s.outerStore (cellsAt pa (bytesOf n v))

/-- An atomic of another device at a home of this one (R231): a poisoned location is left alone (R410). -/
def State.orbitAtomic (s : State) (pa n : Nat) (f : Nat → Option Nat) : State :=
  let s := s.ownLine (pa / 128)
  let old := s.orbitRead pa n
  let s := match if old.2 then none else f old.1 with
    | some v => s.orbitWrite pa n v
    | none => s.outerUsed pa n
  s.sendOrbit (.data pa (BitVec.ofNat 64 old.1) old.2)

/-- A share of this launch on device `dev` has ended with a status: a share that did not end well ends the whole launch (R384, R386). -/
def State.shareEnds (s : State) (n dev status : Nat) : State :=
  let s := s.modLaunch n (fun x => { x with shares := x.shares.filter (· != dev) })
  if status = 0 then s else s.killLaunch n status

/-- The share of a launch that device `dev` has forwarded is killed. -/
def State.killShare (s : State) (dev n status : Nat) : State :=
  s.launches.foldl (fun a e => if e.2.origin = some (dev, n) then a.killLaunch e.1 status else a) s


/-- Some port takes messages. -/
def State.orbitOpen (s : State) : Bool := (List.range 16).any s.portOpen

/-- The die whose launch processor takes a share that is for die `die`: that die, or the first that is up. -/
def State.shareDie (s : State) (die : Nat) : Option Nat := (die :: [0, 1, 2, 3]).find? s.lpUp

/-- The launch that device `dev` has forwarded here has now this class (R379). -/
def State.classShare (s : State) (dev n cls : Nat) : State :=
  s.launches.foldl (fun a e => if e.2.origin = some (dev, n) then a.modLaunch e.1 (fun l => { l with cls := cls }) else a) s

/-- The message can be taken now: an access needs the stack it names, a share a launch processor that is up and its kernel record (R438).
(DEDUCED, log entry 125.) -/
def State.accepts (s : State) (m : OrbitMsg) : Bool :=
  match m with
  | .load pa _ => s.stackReady pa
  | .store pa _ _ => s.stackReady pa
  | .fetchAdd pa _ _ => s.stackReady pa
  | .swap pa _ _ => s.stackReady pa
  | .cas pa _ _ _ => s.stackReady pa
  | .share dst dev l die q o p => dst != Config.devId || (match s.shareDie die with
    | some d => !(s.recordWaits (packetOf d q o p (some (dev, l))))
    | none => false)
  | _ => true

/-- orbitMessageArrival. What is for another device passes by; what cannot be taken yet has not arrived. (DEDUCED, log entry 53.) -/
def State.orbitMsg (s : State) (m : OrbitMsg) : State :=
  match m with
  | .resume => s.beginResume false
  | .data _ _ _ => s
  | .peer d on =>
    let bit : BitVec 64 := BitVec.ofNat 64 (2 ^ (d % 64))
    { s with peersSuspended := if on then s.peersSuspended ||| bit else s.peersSuspended &&& ~~~bit }
  | m =>
    if !s.orbitOpen || !(s.accepts m) then s
    else match m with
    | .load pa n => let r := s.orbitRead pa (min n 8); (s.outerUsed pa (min n 8)).sendOrbit (.data pa (BitVec.ofNat 64 r.1) r.2)
    | .store pa n v => s.orbitWrite pa (min n 8) v.toNat
    | .fetchAdd pa n v => s.orbitAtomic pa (min n 8) (fun o => some ((o + v.toNat) % 2 ^ (8 * min n 8)))
    | .swap pa n v => s.orbitAtomic pa (min n 8) (fun _ => some (v.toNat % 2 ^ (8 * min n 8)))
    | .cas pa n c v => s.orbitAtomic pa (min n 8) (fun o => if o = c.toNat % 2 ^ (8 * min n 8) then some (v.toNat % 2 ^ (8 * min n 8)) else none)
    | .notify die q v => s.notifyWrite (die % Config.dies) (q % 256) v
    | .share dst dev l die q o p =>
      if dst = Config.devId then (match s.shareDie die with
        | some d => s.takePacket d q o p (some (dev, l))
        | none => s)
      else s
    | .energy dst l _ w => if dst = Config.devId then s.modLaunch l (fun x => { x with energy := x.energy + w }) else s
    | .shareClass dst dev l cls => if dst = Config.devId then s.classShare dev l cls else s
    | .shareDone dst l dev status => if dst = Config.devId then s.shareEnds l dev status else s
    | .shareKill dst dev l status => if dst = Config.devId then s.killShare dev l status else s
    | .suspend => s.beginSuspend false
    | _ => s


/-- A message with its sequence number at a port (R432, R435): the next one is taken, one that was taken before is discarded, and a later
one, or one that cannot be taken now, waits at the sender. A RESUME comes while the ports are stopped. -/
def State.orbitTake (s : State) (port seq : Nat) (m : OrbitMsg) : State :=
  match m with
  | .resume => s.orbitMsg .resume
  | m =>
    if s.portOpen port ∧ s.accepts m ∧ seq = Sp.get 0 s.orbitRx port then
      { s with orbitRx := Sp.set 0 s.orbitRx port (seq + 1) }.orbitMsg m
    else s

end Sys2Proof.Machine
end

