-- ==== Sys2Proof/Machine/Events.lean ====
section
/-! DEFINITION. The steps of cores that no slot word names: grant periods, operating points, loops, switches and stalls, results,
freezes, interrupts, promotions, and the writes of registers that act (R32, R35, R48 to R62, R131, R142, R235, R277 to R282, R339,
R344, R406). -/

namespace Sys2Proof.Machine

/-! ### Grant periods and freezes (R35, R54, R56) -/

/-- A core whose freeze has ended. -/
def Core.thaw (k : Core) (f : Freeze) : Core := if k.frozen = some f then { k with frozen := none } else k

/-- The core of a pair waits for its next grant period. -/
def State.grantHeld (s : State) (pair : Nat) : List Nat :=
  ((s.cores.filter (fun c => cluOfCore c.1 == cluOfPair pair && c.2.logical / 2 == pair % 8 && c.2.frozen == some .grant)).map (·.1))

/-- grantPeriodStart: the sum returns to zero, and takes what an upper twin's bundle had put off (R44; DESIGN CHOICE, log entry 80); each held
core goes on, and its bundle issues whatever the sum is by then (R54), also one that froze before EN became 0 (DESIGN CHOICE, log entry 100), its stall bundles counted (R36, R56; how many is the
free value of log entry 14). (DEDUCED, log entry 21.) -/
def State.grantPeriod (s : State) (pair : Nat) : State :=
  let held := s.grantHeld pair
  let n := held.foldl (fun a k => a + 2 * ((Config.frozenPairs (s.freeCtr + k)).toNat + 1)) 0
  let first := (s.pair pair).carry == 0
  let s := s.modPair pair (fun p => { p with sum := p.carry, carry := 0, fresh := p.carry == 0, stalls := min 0xFFFFFFFF (p.stalls + n) })
  let s := held.foldl (fun a k => a.modCore k (fun c => { c.thaw .grant with granted := first })) s
  if held.isEmpty then s else { s with freeCtr := s.freeCtr + 32768 }

/-! ### Loops (R131, R135) -/

/-- One loop level, or the modulo loop (3), ends when its count has run out. -/
def LoopUnit.expire (u : LoopUnit) (lvl : Nat) : LoopUnit :=
  let v := u.settle
  if lvl = 3 then { u with ml := v.ml, lastPass := v.lastPass } else u.setLevel lvl (v.level lvl)

/-- loopCountExpire. -/
def State.loopExpire (s : State) (core x lvl : Nat) : State := s.modCtx core x (fun c => { c with loops := c.loops.expire lvl })

/-! ### Switches and stalls (R49 to R52) -/

/-- The bundle at the program counter of a core's running context, when the core may take one now; none when the context took a
trap or the core froze instead. -/
def State.takeNext (s : State) (core : Nat) : State × Option (Nat × Bundle) :=
  let k := s.core core
  match k.run with
  | none => (s, none)
  | some x =>
    if k.frozen.isSome || k.arrayBehind || k.stalled then (s, none)
    else if (k.ctx x).asyncDue then (s.takeAsync core x, none)
    else if s.fetchMisses.contains core then ({ s with fetchMisses := s.fetchMisses.filter (· != core) }.freeze core .fetch, none)
    else
      let r := s.fetch core x
      match r.2 with
      | .trap t => (r.1.takeTrap core x t, none)
      | .poison a => ((r.1.settleLoops core x).consumePoison core x cPOISON posNone a, none)
      | .freeze f => (r.1.freeze core f, none)
      | .bundle b => (r.1, some (x, b))

/-- The bundle at the program counter blocks, with this MB (R49). -/
def State.blocksWith (s : State) (core : Nat) (mb : Bool) : Option (State × Nat × Bundle) :=
  match s.takeNext core with
  | (t, some (x, b)) => if (t.arriveAt core x b).2 = .block ∧ hdrMB b.hdr.toNat = mb then some (t, x, b) else none
  | _ => none

/-- contextSwitchOut: a blocked bundle with MB 1 (R51). -/
def State.switchOutAt (s : State) (core : Nat) : State :=
  match s.blocksWith core true with
  | some e => e.1.issueOn core e.2.1 e.2.2
  | none => s

/-- stallInPlace: a blocked bundle with MB 0 (R50). -/
def State.stallAt (s : State) (core : Nat) : State :=
  match s.blocksWith core false with
  | some e => e.1.issueOn core e.2.1 e.2.2
  | none => s

/-- contextResume: an idle core takes a context whose blocking condition has cleared (R52), by round-robin after the one that left it
(R376). -/
def State.resumeCtx (s : State) (core x : Nat) : State :=
  let k := s.core core
  if k.run.isNone && k.frozen.isNone && k.launch.isSome && nextCtx k.mayRun k.last == some x then s.modCore core (fun k => k.takeOver x) else s

/-- stallEnd (R50), after an even number of cycles (R36). -/
def State.stallEnds (s : State) (core : Nat) : State :=
  let k := s.core core
  match k.run with
  | none => s
  | some x =>
    if k.stalled && k.frozen.isNone && (k.unblocked x || (k.ctx x).asyncDue) then s.modCore core (fun k => k.endStall x) else s

/-! ### Results (R32, R35) -/

/-- What of a written result is still to come with its bundle: its flags and its trap. -/
def Flight.rest (f : Flight) : Option Flight :=
  if f.flags = 0 ∧ !f.bound ∧ !f.lost then none else some { f with val := none, mark := none, latch := false }

/-- resultWrite: results due in the bundle that is about to issue are written; what else they raise comes with the bundle.
(DEDUCED, log entry 36.) -/
def State.writeResults (s : State) (core x : Nat) : State :=
  match s.takeNext core with
  | (t, some (y, b)) =>
    if y = x ∧ (t.arriveAt core x b).2 = .go ∧ !((t.ctx core x).due.isEmpty) then
      let rest := (t.ctx core x).due.filterMap Flight.rest
      (t.modCore core (fun k => k.deliver x)).modCtx core x (fun c => { c with flight := c.flight ++ rest })
    else s
  | _ => s

/-- The result belongs to a promote-acquire that still waits (R281). -/
def Core.promised (k : Core) (x : Nat) (f : Flight) : Bool :=
  k.promos.any (fun p => p.ctx == x && f.promo == some p.no)

/-- The freeze of a core for late data ends once the running context's data has come. -/
def Core.thawData (k : Core) : Core := if k.run.any (fun x => (k.ctx x).lateData) then k else k.thaw .data

/-- memoryDataArrival: the data of every global result of the core that some home has answered arrives. -/
def State.dataArrives (s : State) (core : Nat) : State :=
  s.modCore core (fun k =>
    ({ k with ctxs := k.ctxs.map (fun c => (c.1, c.2.arrive (fun f => !f.dead && !(k.promised c.1 f)))) } : Core).thawData)

/-- bundleFetchFill. -/
def State.fetchFill (s : State) (core : Nat) : State := s.modCore core (fun k => k.thaw .fetch)

/-! ### Interrupts (R344) -/

/-- userInterruptTaken. -/
def State.userInterrupt (s : State) (core x : Nat) : State :=
  let k := s.core core
  let c := k.ctx x
  if k.run = some x ∧ k.frozen.isNone ∧ !c.inHandler ∧ !c.uip.isEmpty then s.takeAsync core x else s

/-- phaseComplete (R339): the first or third case holds. -/
def State.phaseDone (s : State) (ph : Nat) : State :=
  let f := s.phaser ph
  if f.ready then s.setPhaser ph (s.completePhase f) else s

/-! ### Promotion (R235, R278 to R282) -/

/-- A core answers promotion requests: its physical core is mapped or spare, and its cluster is at work (R282). -/
def State.answers (s : State) (core : Nat) : Bool :=
  decide ((s.clu (cluOfCore core)).pc (physOfCore core) ≤ 1) && s.cluReady (cluOfCore core) && !s.powerOff && s.susp != .suspended

/-- Requests at the head of a core's list whose generation is drained are acknowledged in order (R282). -/
def Core.ackDrained : Nat → Core → Core
  | 0, k => k
  | n + 1, k =>
    match k.preqs with
    | [] => k
    | r :: t => if r.2 ≤ k.drained then Core.ackDrained n { k with preqs := t, reqsAcked := min 0xFFFF (k.reqsAcked + 1) } else k

/-- promoteRequestArrival: the oldest request is acknowledged, or a drain to its generation starts. -/
def State.promoteRequest (s : State) (core : Nat) : State :=
  if !(s.answers core) then s
  else s.modCore core (fun k =>
    let k := k.ackDrained k.preqs.length
    match k.preqs with
    | [] => k
    | r :: _ => if k.drain.isNone then { k with drain := some r.2 } else k)

/-- The drain that follows one that has ended: for a waiting request, or for a log that is still full (R279, R282). -/
def Core.nextDrain (k : Core) : Core :=
  match k.preqs with
  | r :: _ => { k with drain := some r.2 }
  | [] =>
    if 64 ≤ k.log.length then { k with drain := k.log.head?.map (·.gen), ovfd := min 0xFFFF (k.ovfd + 1) } else k

/-- drainComplete (R278). A core that does not answer acknowledges nothing (R282). -/
def State.drainDone (s : State) (core : Nat) : State :=
  match (s.core core).drain with
  | none => s
  | some g =>
    let on := s.answers core
    (s.drain core g).modCore core (fun k =>
      let k := ({ k with drain := none } : Core).thaw .logFull
      if on then (k.ackDrained k.preqs.length).nextDrain else k)

/-- The promotion is acknowledged: fewer requests of its kind wait at its target than the core still has promises for. -/
def State.acked (s : State) (core : Nat) (p : Promo) : Bool :=
  let n := ((s.core core).promos.filter (fun q => q.target == p.target && q.gen == p.gen)).length
  decide ((((s.core p.target).preqs.filter (fun r => r.1 == core && r.2 == p.gen)).length) < n)

/-- The result of a promote-acquire takes its value, or its PROMOTE_LOST: in flight, in the shadow buffer, or set aside by a trap (R51,
R147). -/
def Ctx.promoResult (c : Ctx) (p : Promo) (g : Flight → Flight) : Ctx :=
  let f (r : Flight) : Flight := if r.promo = some p.no then { g r with promo := none } else r
  { c with flight := c.flight.map f, shadow := c.shadow.map f, saved := c.saved.map (fun v => { v with flight := v.flight.map f }) }

/-- The operation as a piece of memory. -/
def Promo.piece (p : Promo) (core : Nat) : Piece :=
  { space := 0, core := core, addr := p.pa, va := p.va, n := p.width / 8, entry := p.entry.toNat, ad := p.ad }


/-- The promote-acquire ends (R281 steps 3 and 4): its DEV acquire, and the write of an apcas. -/
def State.promoFinish (s : State) (core : Nat) (p : Promo) : State :=
  let s := (s.modCore core (fun k => { k with promos := k.promos.erase p })).acquire core 3
  let writes := p.cas && p.mark.isNone && p.old == p.cmp.toNat
  let s := if writes then (s.adAgain p.ad p.entry.toNat).atCommit core p.ctx p.rel (p.piece core) (some p.new.toNat) else s
  s.modCore core (fun k =>
    let c := (k.ctx p.ctx).promoResult p (fun r => { r with val := some (.s (BitVec.ofNat 64 p.old)), mark := p.mark, arrived := true })
    ((k.setCtx p.ctx c).thaw .data).thaw .promise)

/-- The location of an apcas as it stands when the acknowledgement comes: the operation is one atomic access, so it acts on the value
that its line then has. -/
def State.promoAgain (s : State) (core : Nat) (p : Promo) : State × Promo :=
  let s := s.atTake core p.ctx (p.piece core)
  (s, { p with old := s.atOld core p.ctx (p.piece core), mark := s.atMark core p.ctx (p.piece core) })

/-- promoteAckArrival: the acknowledgement of the oldest acknowledged promise arrives. An apld returns the value that it read; an apcas
whose location has since taken another tag asks again. (DEDUCED, log entry 96.) -/
def State.promoteAck (s : State) (core : Nat) : State :=
  match (s.core core).promos.find? (s.acked core) with
  | none => s
  | some p =>
    if !p.cas then s.promoFinish core p
    else
      let s := s.modCore core (fun k => { k with promos := k.promos.erase p })
      let r := s.promoAgain core p
      match r.1.promoTag core (p.piece core) with
      | none => r.1.promoFinish core r.2
      | some t =>
        if t = (p.target, p.gen) then r.1.promoFinish core r.2
        else r.1.sendPromo core { r.2 with target := t.1, gen := t.2, since := s.time }

/-- promoteLost: the core named by the oldest promise has not answered for 100 µs (R235, R282). -/
def State.promoteLostAt (s : State) (core : Nat) : State :=
  match (s.core core).promos.find? (fun p => !(s.answers p.target) && decide (p.since + 100 ≤ s.time)) with
  | none => s
  | some p =>
    let s := s.modCore p.target (fun k => { k with preqs := k.preqs.erase (core, p.gen) })
    s.modCore core (fun k =>
      let c := (k.ctx p.ctx).promoResult p (fun r => { r with val := none, mark := none, lost := true, arrived := true })
      (({ k with promos := k.promos.erase p }.setCtx p.ctx c).thaw .data).thaw .promise)

/-! ### Registers that act (R406, R408) -/

/-- One invalidation enters the queue when a place is free (R406). -/
def State.queueXinv (s : State) (x : Xinv) : State := if s.xinvFull then s else { s with xinvs := s.xinvs ++ [x] }

/-- xinvComplete: the oldest invalidation has reached every cache, and a core that waits for a place tries again. -/
def State.xinvDone (s : State) : State := if s.xinvs.isEmpty then s else s.xinvPop.unfreeze .xinv

/-- The streamer works while the device runs (R432, R435). -/
def State.streamerOn (s : State) : Bool := s.susp == .running && !s.powerOff

def State.ckpPageStep (s : State) : State := if s.streamerOn then s.ckpPage else s
def State.ckpPassStep (s : State) : State := if s.streamerOn then s.ckpPassEnd else s

end Sys2Proof.Machine
end

