-- ==== Sys2Proof/Machine/AgentSteps.lean ====
section
/-! DEFINITION. The meanings of the steps without an encoding: the transitions of the agents of the device. A transition that its conditions do not allow now leaves the state as it is. -/

namespace Sys2Proof.Machine

/-- GRANT_PERIOD_START (R54). Every 256 cycles of the pair the energy sum returns to zero and a bundle held by the grant issues. -/
def execGrantPeriodStart (pair : Nat) (s : State) : Res :=
  .next (s.grantPeriod pair)

/-- OP_MOVE_COMPLETE (R59). After the settling latency the pair's clock and supply reach the target operating point and any next move starts. -/
def execOpMoveComplete (pair : Nat) (s : State) : Res :=
  .next (s.opMoveDone pair)

/-- LOOP_COUNT_EXPIRE (R131). A loop level's count reaches zero at its end bundle, the level ends and issue continues in sequence. -/
def execLoopCountExpire (core : Nat) (ctx : Nat) (lvl : Nat) (s : State) : Res :=
  .next (s.loopExpire core ctx lvl)

/-- CONTEXT_SWITCH_OUT (R51). A blocked bundle with MB set switches its context out, recording in-flight results in the shadow buffer and picking the next context. -/
def execContextSwitchOut (core : Nat) (s : State) : Res :=
  .next (s.switchOutAt core)

/-- CONTEXT_RESUME (R52). A switched-out context whose blocking condition has cleared is chosen again and its blocked bundle issues first. -/
def execContextResume (core : Nat) (ctx : Nat) (s : State) : Res :=
  .next (s.resumeCtx core ctx)

/-- STALL_IN_PLACE (R50). A blocked bundle with MB clear stalls the core in place until its blocking condition clears. -/
def execStallInPlace (core : Nat) (s : State) : Res :=
  .next (s.stallAt core)

/-- STALL_END (R50). The blocking condition of a stall in place clears, or an asynchronous trap becomes pending, and the stall ends. -/
def execStallEnd (core : Nat) (s : State) : Res :=
  .next (s.stallEnds core)

/-- RESULT_WRITE (R32). A result of latency k triggered in bundle i is written to its latch and destination register in bundle i+k, or from the shadow buffer after a resume. -/
def execResultWrite (core : Nat) (ctx : Nat) (s : State) : Res :=
  .next (s.writeResults core ctx)

/-- MEMORY_DATA_ARRIVAL (R35). The data of a global-memory result that was due arrives and the freeze it caused ends. -/
def execMemoryDataArrival (core : Nat) (s : State) : Res :=
  .next (s.dataArrives core)

/-- BUNDLE_FETCH_FILL (R35). The missing bundle arrives and the fetch freeze ends. -/
def execBundleFetchFill (core : Nat) (s : State) : Res :=
  .next (s.fetchFill core)

/-- MATRIX_OP_ISSUE (R41). A queued matrix operation issues at the core's first window after its predecessors and previous beats, starting its beats. -/
def execMatrixOpIssue (core : Nat) (s : State) : Res :=
  .next (s.matIssue core)

/-- MATRIX_BEAT (R211). One beat of an issued matrix operation is performed in a window of the issuing core. -/
def execMatrixBeat (core : Nat) (s : State) : Res :=
  .next (s.arrayBeat core)

/-- REMOTE_OPERAND_ARRIVAL (R214). Remote-scratchpad operand rows that a waiting beat needs arrive and the beat proceeds. -/
def execRemoteOperandArrival (core : Nat) (s : State) : Res :=
  .next (s.remoteArrives core)

/-- MMRK_FIRE (R210). A mark fires once every earlier queue entry has finished its scratchpad reads, updating the tag's fired count. -/
def execMmrkFire (core : Nat) (s : State) : Res :=
  .next (s.modCore core Core.fireMark)

/-- ENGINE_OP_ISSUE (R41). A queued engine-slot operation issues once its predecessors, beats and waiting condition allow. -/
def execEngineOpIssue (core : Nat) (s : State) : Res :=
  .next (s.engIssue core)

/-- CHANNEL_OCCUPANCY_FALL (R246). A lenient-mode copy held for channel occupancy proceeds once the occupancy falls. -/
def execChannelOccupancyFall (core : Nat) (s : State) : Res :=
  .next (s.occupancyFall core)

/-- CPE_START (R335). A cpe's transfer starts once its tag has fired. -/
def execCpeStart (tid : Nat) (s : State) : Res :=
  .next (s.cpeStart tid)

/-- COPY_PIECE (R324). A transfer checks and writes one piece of its logical data, faulting or writing units. -/
def execCopyPiece (tid : Nat) (s : State) : Res :=
  .next (s.copyPiece tid)

/-- TRANSFER_COMPLETE (R247). A transfer completes, advancing the watermark and writing its completion record. -/
def execTransferComplete (tid : Nat) (s : State) : Res :=
  .next (s.transferDone tid)

/-- USER_INTERRUPT_TAKEN (R344). A context whose armed watermark has been reached takes USER_INTERRUPT before its next bundle. -/
def execUserInterruptTaken (core : Nat) (ctx : Nat) (s : State) : Res :=
  .next (s.userInterrupt core ctx)

/-- PHASE_COMPLETE (R339). A phase's completion condition holds: PHASE rises, counts shift and departures take effect. -/
def execPhaseComplete (ph : Nat) (s : State) : Res :=
  .next (s.phaseDone ph)

/-- RING_PLACEMENT (R346). A sent payload arriving at a ring is placed in a slot, spilled to HBM or dropped. -/
def execRingPlacement (tid : Nat) (s : State) : Res :=
  .next (s.ringPlace tid)

/-- RECV_TAKE (R347). A waiting recv takes the ring's next message or spill entry. -/
def execRecvTake (tid : Nat) (s : State) : Res :=
  .next (s.recvTake tid)

/-- ENCODER_COMMAND_START (R303). The cluster Plesal encoder takes its next command and runs it to its status record. -/
def execEncoderCommandStart (clu : Nat) (s : State) : Res :=
  .next (s.encStart clu)

/-- ENCODER_COMMAND_DROP (R258). A command that waited over 1 ms for the encoder is dropped with STATE 3. -/
def execEncoderCommandDrop (clu : Nat) (s : State) : Res :=
  .next (s.encDrop clu)

/-- PROMOTE_REQUEST_ARRIVAL (R282). A promotion request reaches the writer core and is acknowledged or starts a drain. -/
def execPromoteRequestArrival (core : Nat) (s : State) : Res :=
  .next (s.promoteRequest core)

/-- DRAIN_COMPLETE (R278). A running drain finishes, DRAINED rises and waiting requests are acknowledged. -/
def execDrainComplete (core : Nat) (s : State) : Res :=
  .next (s.drainDone core)

/-- PROMOTE_ACK_ARRIVAL (R281). The acknowledgement reaches the promoter, which completes its DEV acquire. -/
def execPromoteAckArrival (core : Nat) (s : State) : Res :=
  .next (s.promoteAck core)

/-- PROMOTE_LOST (R235). A promotion target does not answer within 100 us and the operation raises PROMOTE_LOST. -/
def execPromoteLost (core : Nat) (s : State) : Res :=
  .next (s.promoteLostAt core)

/-- SA_ELEMENT_STEP_ARRIVAL (R309). An element step from a remote sadd reaches its segment and is applied indivisibly. -/
def execSaElementStepArrival (k : Nat) (s : State) : Res :=
  .next (s.arriveSa k)

/-- SPACE2_STORE_ARRIVAL (R272). A store to another core's scratchpad reaches that core. -/
def execSpace2StoreArrival (k : Nat) (s : State) : Res :=
  .next (s.arriveS2 k)

/-- CORE_GROUP_END (R143). All contexts have halted and queues and transfers are done, so the kernel-end release follows. -/
def execCoreGroupEnd (core : Nat) (s : State) : Res :=
  .next (s.coreGroupEnd core)

/-- QUEUE_NOTIFY (R361). A write to a queue's notify register sets the notified write index. -/
def execQueueNotify (die : Nat) (q : Nat) (size : Nat) (off : Nat) (val : Dw) (s : State) : Res :=
  .next (s.queueNotify die q size off val)

/-- PACKET_READ (R360). The launch processor acquires and reads a ring slot, then clears TYPE and raises READIDX. -/
def execPacketRead (die : Nat) (q : Nat) (s : State) : Res :=
  .next (s.packetRead die q)

/-- LAUNCH_PLACE (R372). A waiting launch is placed on cores and channels when room exists. -/
def execLaunchPlace (l : Nat) (s : State) : Res :=
  .next (s.launchPlace l)

/-- LAUNCH_COMPLETE (R369). A launch finishes, releases at RFS scope and writes its completion signal. -/
def execLaunchComplete (l : Nat) (s : State) : Res :=
  .next (s.launchComplete l)

/-- BARRIER_POLL (R365). The launch processor rereads a barrier's watched dword on a write or every 10 us. -/
def execBarrierPoll (die : Nat) (q : Nat) (s : State) : Res :=
  .next (s.barrierPoll die q)

/-- PREEMPTION (R381). A launch is stopped and saved to its queue's save region. -/
def execPreemption (l : Nat) (s : State) : Res :=
  .next (s.preempt l)

/-- RESUMPTION (R383). A pre-empted launch is restored on its cores and continues. -/
def execResumption (l : Nat) (s : State) : Res :=
  .next (s.resume l)

/-- QUANTUM_EXPIRY (R377). A running launch reaches its class's quantum and becomes a pre-emption candidate. -/
def execQuantumExpiry (l : Nat) (s : State) : Res :=
  .next (s.quantumExpiry l)

/-- ENERGY_BUDGET_EXCEEDED (R379). A launch's energy count passes EBUDGET, lowering its class and restarting the count. -/
def execEnergyBudgetExceeded (l : Nat) (s : State) : Res :=
  .next (s.energyExceeded l)

/-- HOST_ACCESS (R389). A host PCIe or CXL request is performed at the home slice or BAR 0 register. -/
def execHostAccess (r : HostReq) (s : State) : Res :=
  .next (s.hostReq r)

/-- XINV_ALL (R406). A write of XINV with SEL 00 queues invalidation of every translation entry. -/
def execXinvAll (s : State) : Res :=
  .next (s.queueXinv .all)

/-- XINV_OWNER (R406). A write of XINV with SEL 01 queues invalidation of an owner's entries. -/
def execXinvOwner (owner : Byte) (s : State) : Res :=
  .next (s.queueXinv (.owner owner))

/-- XINV_PAGE (R406). A write of XINV with SEL 10 queues invalidation of entries translating one page. -/
def execXinvPage (owner : Byte) (vpn : Nat) (s : State) : Res :=
  .next (s.queueXinv (.page owner vpn))

/-- XINV_COMPLETE (R406). A queued invalidation reaches every cache of the device and completes. -/
def execXinvComplete (s : State) : Res :=
  .next (s.xinvDone)

/-- CKP_PAGE (R408). The streamer clears D of a dirty page, writes back its lines and sends it to the target. -/
def execCkpPage (s : State) : Res :=
  .next (s.ckpPageStep)

/-- CKP_PASS_END (R418). A checkpoint pass completes and its status record is written. -/
def execCkpPassEnd (s : State) : Res :=
  .next (s.ckpPassStep)

/-- PAIRCFG_WRITE (R48). A supervisor write sets a pair's free or tidelocked mode unless refused. -/
def execPaircfgWrite (core : Nat) (val : Dw) (s : State) : Res :=
  .next (s.paircfgSet core val)

/-- CMAP_WRITE (R154). A write to CMAPLO or CMAPHI replaces the running core map if valid, else sets ERR. -/
def execCmapWrite (clu : Nat) (hi : Bool) (val : Dw) (s : State) : Res :=
  .next (s.cmapWrite clu hi val)

/-- TEST_HOLD (R155). HOLD stops placement on a physical core and starts draining it for test. -/
def execTestHold (clu : Nat) (val : Dw) (s : State) : Res :=
  .next (s.testCommand clu 1 val)

/-- TEST_START (R155). START runs the 200 us pattern on the held core. -/
def execTestStart (clu : Nat) (val : Dw) (s : State) : Res :=
  .next (s.testCommand clu 2 val)

/-- TEST_ABORT (R156). ABORT stops and resets the tested core and returns it to its state before HOLD. -/
def execTestAbort (clu : Nat) (val : Dw) (s : State) : Res :=
  .next (s.testCommand clu 3 val)

/-- TEST_RELEASE (R155). RELEASE returns a held or passed core to its former state. -/
def execTestRelease (clu : Nat) (val : Dw) (s : State) : Res :=
  .next (s.testCommand clu 4 val)

/-- TEST_DRAIN_COMPLETE (R155). The held core's last context ends and STATE becomes held. -/
def execTestDrainComplete (clu : Nat) (s : State) : Res :=
  .next (s.testDrained clu)

/-- TEST_PATTERN_COMPLETE (R156). The pattern ends, TESTSIG is compared with TESTEXP, and the core passes or is retired. -/
def execTestPatternComplete (clu : Nat) (s : State) : Res :=
  .next (s.patternDone clu)

/-- CONFIG_IMAGE_REWRITE (R436). The management firmware writes a new signed configuration image after a repair record. -/
def execConfigImageRewrite (clu : Nat) (s : State) : Res :=
  .next (s.imageRewrite clu)

/-- ECC_CORRECT (R409). A correctable error is corrected in place and counted in CE. -/
def execEccCorrect (die : Nat) (s : State) : Res :=
  .next (s.addCe die)

/-- POISON_MARK (R409). An uncorrectable error marks its 32-byte granule poisoned. -/
def execPoisonMark (p : PoisonPlace) (s : State) : Res :=
  .next (s.poisonAt p)

/-- SCRUB_ROW (R415). A memory controller refreshes a row and checks every granule on it. -/
def execScrubRow (die : Nat) (granules : List (Nat × ScrubResult)) (s : State) : Res :=
  .next (s.scrub die granules)

/-- HEARTBEAT_SEND (R422). Every 10 us a die sends its heartbeat to the other dies and BEAT rises. -/
def execHeartbeatSend (die : Nat) (s : State) : Res :=
  .next (s.heartbeat die)

/-- HEARTBEAT_CHECK (R422). Every 10 us a die checks other dies' heartbeats, declaring a die lost after three misses. -/
def execHeartbeatCheck (die : Nat) (s : State) : Res :=
  .next (s.heartCheck die)

/-- LOST_DIE_ACCESS_TIMEOUT (R423). An access homed on a lost die returns poisoned data after 100 us. -/
def execLostDieAccessTimeout (core : Nat) (s : State) : Res :=
  .next (s.lostTimeout core)

/-- SUPPLY_SAG (R425). An island's supply falls over 5 % below target and its pairs' clocks are stretched. -/
def execSupplySag (die : Nat) (isl : Nat) (s : State) : Res :=
  .next (s.sagBegins die isl)

/-- OVER_CURRENT (R426). An island's current passes its limit and its clocks are stretched. -/
def execOverCurrent (die : Nat) (isl : Nat) (s : State) : Res :=
  .next (s.ocBegins die isl)

/-- OVER_CURRENT_KILL (R385). After 100 us of excess current the launch processor kills one launch with POWER_KILL. -/
def execOverCurrentKill (die : Nat) (s : State) : Res :=
  .next (s.powerKill die)

/-- SOFT_TRIP (R427). An island reaches 95 C and enters soft trip. -/
def execSoftTrip (die : Nat) (isl : Nat) (s : State) : Res :=
  .next (s.softBegins die isl)

/-- CEIL_STEP_DOWN (R427). Every 1 ms in soft trip CEIL of the island's pairs falls one point. -/
def execCeilStepDown (die : Nat) (isl : Nat) (s : State) : Res :=
  .next (s.ceilDown die isl)

/-- CEIL_STEP_UP (R427). Every 10 ms below 90 C CEIL rises one point up to its written value. -/
def execCeilStepUp (die : Nat) (isl : Nat) (s : State) : Res :=
  .next (s.ceilUp die isl)

/-- HARD_TRIP (R428). At 105 C or on command the device stops reading queues and pre-empts every launch. -/
def execHardTrip (site : Option (Nat × Nat)) (s : State) : Res :=
  .next (s.hardBegins site)

/-- POWER_OFF_TRIP (R429). At 115 C or 200 ms after a hard trip the compute dies lose power and HBM enters retention. -/
def execPowerOffTrip (s : State) : Res :=
  .next (s.powerOffNow)

/-- SUSPEND (R432). A SUSPEND command begins saving the device to HBM retention. -/
def execSuspend (domain : Bool) (s : State) : Res :=
  .next (s.beginSuspend domain)

/-- SUSPEND_COMPLETE (R432). The last suspend step ends, the compute dies are gated and STATE becomes suspended. -/
def execSuspendComplete (s : State) : Res :=
  .next (s.suspendDone)

/-- RESUME (R435). A RESUME command begins restoring a suspended device. -/
def execResume (domain : Bool) (s : State) : Res :=
  .next (s.beginResume domain)

/-- RESUME_COMPLETE (R435). Launches and passes have restarted, queues are read again and STATE returns to running. -/
def execResumeComplete (s : State) : Res :=
  .next (s.resumeDone)

/-- DEVICE_BOOT (R438). The service die boots from flash and loads the valid configuration image with the higher SEQ sum. -/
def execDeviceBoot (s : State) : Res :=
  .next (s.boot)

/-- FUNCTION_READY (R438). A function applies its part of the image and reports ready in READY. -/
def execFunctionReady (die : Nat) (k : Nat) (s : State) : Res :=
  .next (s.funcReady die k)

/-- PAIR_RESET (R61). A pair is reset: GEN, CEIL, profile slots and grant periods start anew. -/
def execPairReset (pair : Nat) (s : State) : Res :=
  .next (s.resetPair pair)

/-- ORBIT_MESSAGE_ARRIVAL (R386). A request or message from another device of the domain arrives over Orbit: a load, store or atomic homed here, a notify store, a forwarded packet share or its completion, or a forwarded SUSPEND or RESUME. -/
def execOrbitMessageArrival (m : OrbitMsg) (s : State) : Res :=
  .next (s.orbitMsg m)

/-- SUSPENDED_DEVICE_ACCESS_TIMEOUT (R434). A load or atomic to a suspended device returns poisoned data once 100 us have passed. -/
def execSuspendedDeviceAccessTimeout (core : Nat) (s : State) : Res :=
  .next (s.suspTimeout core)

/-- DIE_STOPS_ANSWERING (R422). A die fails and stops sending heartbeats and answering on its links. -/
def execDieStopsAnswering (die : Nat) (s : State) : Res :=
  .next (s.dieStops die)

/-- SAG_EPISODE_END (R425). An island's supply returns to within 5 % of its target, the clock stretching stops and the sag episode ends. -/
def execSagEpisodeEnd (die : Nat) (isl : Nat) (s : State) : Res :=
  .next (s.sagEnds die isl)

/-- OVER_CURRENT_CLEARS (R426). An island's current falls back below its limit, so its stretching ends, OC clears and no further kills follow. -/
def execOverCurrentClears (die : Nat) (isl : Nat) (s : State) : Res :=
  .next (s.ocEnds die isl)

/-- SOFT_TRIP_RECOVERY (R427). An island's temperature falls below 90 C, ending the soft trip and starting the 10 ms CEIL recovery steps. -/
def execSoftTripRecovery (die : Nat) (isl : Nat) (s : State) : Res :=
  .next (s.softEnds die isl)

/-- CEIL_WRITE (R60). A supervisor write of CEIL in OPSTAT sets the pair's ceiling, which changes its target and can start an operating-point move. -/
def execCeilWrite (core : Nat) (val : Dw) (s : State) : Res :=
  .next (s.ceilSet (s.pairOf core) (fld val.toNat 8 6))

end Sys2Proof.Machine
end

