-- ==== Sys2Proof/Machine/SlotControl.lean ====
section
/-! DEFINITION. The meanings of the trigger moves of CT: the issue of a bundle that holds the move alone. What the unit does is in Control.lean, SysRegs.lean and, for the end of the bundle, Issue.lean (R127 to R152). -/

namespace Sys2Proof.Machine

/-- JMP (R127). Absolute jump to t after two delay bundles. -/
def execJmp (m : MoveHead) (s : State) : Res :=
  .next (issueBundle (oneMove (encodeTrig 3 4 m)) s)

/-- BR (R127). Relative branch to address + t. -/
def execBr (m : MoveHead) (s : State) : Res :=
  .next (issueBundle (oneMove (encodeTrig 3 5 m)) s)

/-- BNZ (R127). Relative branch when a is not zero. -/
def execBnz (m : MoveHead) (s : State) : Res :=
  .next (issueBundle (oneMove (encodeTrig 3 6 m)) s)

/-- BZ (R127). Relative branch when a is zero. -/
def execBz (m : MoveHead) (s : State) : Res :=
  .next (issueBundle (oneMove (encodeTrig 3 7 m)) s)

/-- CALL (R128). Relative call writing the return address to s63 and b3. -/
def execCall (m : MoveHead) (s : State) : Res :=
  .next (issueBundle (oneMove (encodeTrig 3 8 m)) s)

/-- RET (R127). Return to the address in t. -/
def execRet (m : MoveHead) (s : State) : Res :=
  .next (issueBundle (oneMove (encodeTrig 3 9 m)) s)

/-- LOOP (R130). Starts counted loop level a[1:0] with count t. -/
def execLoop (m : MoveHead) (s : State) : Res :=
  .next (issueBundle (oneMove (encodeTrig 3 10 m)) s)

/-- MLOOP (R134). Starts a modulo loop with iteration count, stage layout and optional rollback. -/
def execMloop (m : MoveHead) (s : State) : Res :=
  .next (issueBundle (oneMove (encodeTrig 3 11 m)) s)

/-- LBRK (R133). Ends the most recent active loop and branches relatively. -/
def execLbrk (m : MoveHead) (s : State) : Res :=
  .next (issueBundle (oneMove (encodeTrig 3 12 m)) s)

/-- REPT (R139). Sets a repeat prefix for the context's next matrix-slot operation. -/
def execRept (m : MoveHead) (s : State) : Res :=
  .next (issueBundle (oneMove (encodeTrig 3 13 m)) s)

/-- TRAP (R150). Raises BREAK with CODE from t[7:0]. -/
def execTrap (m : MoveHead) (s : State) : Res :=
  .next (issueBundle (oneMove (encodeTrig 3 14 m)) s)

/-- ERET (R149). Returns from a handler to TEPC, restoring the program's shadowed state. -/
def execEret (m : MoveHead) (s : State) : Res :=
  .next (issueBundle (oneMove (encodeTrig 3 15 m)) s)

/-- WAIT (R142). Pops a wake-queue token, or blocks the bundle when the queue is empty. -/
def execWait (m : MoveHead) (s : State) : Res :=
  .next (issueBundle (oneMove (encodeTrig 3 16 m)) s)

/-- WARM (R140). Arms a wake comparator over a local scratchpad range. -/
def execWarm (m : MoveHead) (s : State) : Res :=
  .next (issueBundle (oneMove (encodeTrig 3 17 m)) s)

/-- SYSR (R151). Reads a system register into the register named by port b. -/
def execSysr (m : MoveHead) (s : State) : Res :=
  .next (issueBundle (oneMove (encodeTrig 3 18 m)) s)

/-- SYSW (R151). Writes t to a system register that has no behaviour of its own. -/
def execSysw (m : MoveHead) (s : State) : Res :=
  .next (issueBundle (oneMove (encodeTrig 3 19 m)) s)

/-- HALT (R143). Ends the context at its bundle. -/
def execHalt (m : MoveHead) (s : State) : Res :=
  .next (issueBundle (oneMove (encodeTrig 3 20 m)) s)

end Sys2Proof.Machine
end

