-- ==== Sys2Proof/Machine/SlotMemory.lean ====
section
/-! DEFINITION. The meanings of the trigger moves of LS, LV and AT: the issue of a bundle that holds the move alone. What the units do is in MemUnits.lean (R220 to R235). -/

namespace Sys2Proof.Machine

/-- LDB (R226). Loads a byte, sign-extended. -/
def execLdb (m : MoveHead) (s : State) : Res :=
  .next (issueBundle (oneMove (encodeTrig 4 4 m)) s)

/-- LDBU (R226). Loads a byte, zero-extended. -/
def execLdbu (m : MoveHead) (s : State) : Res :=
  .next (issueBundle (oneMove (encodeTrig 4 5 m)) s)

/-- LDH (R226). Loads a half, sign-extended. -/
def execLdh (m : MoveHead) (s : State) : Res :=
  .next (issueBundle (oneMove (encodeTrig 4 6 m)) s)

/-- LDHU (R226). Loads a half, zero-extended. -/
def execLdhu (m : MoveHead) (s : State) : Res :=
  .next (issueBundle (oneMove (encodeTrig 4 7 m)) s)

/-- LDW (R226). Loads a word, sign-extended. -/
def execLdw (m : MoveHead) (s : State) : Res :=
  .next (issueBundle (oneMove (encodeTrig 4 8 m)) s)

/-- LDWU (R226). Loads a word, zero-extended. -/
def execLdwu (m : MoveHead) (s : State) : Res :=
  .next (issueBundle (oneMove (encodeTrig 4 9 m)) s)

/-- LDD (R226). Loads a dword. -/
def execLdd (m : MoveHead) (s : State) : Res :=
  .next (issueBundle (oneMove (encodeTrig 4 10 m)) s)

/-- STB (R226). Stores a byte from port b. -/
def execStb (m : MoveHead) (s : State) : Res :=
  .next (issueBundle (oneMove (encodeTrig 4 11 m)) s)

/-- STH (R226). Stores a half from port b. -/
def execSth (m : MoveHead) (s : State) : Res :=
  .next (issueBundle (oneMove (encodeTrig 4 12 m)) s)

/-- STW (R226). Stores a word from port b. -/
def execStw (m : MoveHead) (s : State) : Res :=
  .next (issueBundle (oneMove (encodeTrig 4 13 m)) s)

/-- STD (R226). Stores a dword from port b. -/
def execStd (m : MoveHead) (s : State) : Res :=
  .next (issueBundle (oneMove (encodeTrig 4 14 m)) s)

/-- FENCE (R227). An acquire, release or both at the cfg scope. -/
def execFence (m : MoveHead) (s : State) : Res :=
  .next (issueBundle (oneMove (encodeTrig 4 15 m)) s)

/-- PREF (R228). Requests the line holding EA into L1, never faulting. -/
def execPref (m : MoveHead) (s : State) : Res :=
  .next (issueBundle (oneMove (encodeTrig 4 16 m)) s)

/-- WBL (R228). Writes the line holding EA back to L2 if dirty. -/
def execWbl (m : MoveHead) (s : State) : Res :=
  .next (issueBundle (oneMove (encodeTrig 4 17 m)) s)

/-- INVL (R228). Writes back and invalidates the line holding EA. -/
def execInvl (m : MoveHead) (s : State) : Res :=
  .next (issueBundle (oneMove (encodeTrig 4 18 m)) s)

/-- VLD (R229). Loads 512 bytes into a vector. -/
def execVld (m : MoveHead) (s : State) : Res :=
  .next (issueBundle (oneMove (encodeTrig 5 4 m)) s)

/-- VST (R229). Stores a vector from port b. -/
def execVst (m : MoveHead) (s : State) : Res :=
  .next (issueBundle (oneMove (encodeTrig 5 5 m)) s)

/-- VLDS (R229). Strided vector load. -/
def execVlds (m : MoveHead) (s : State) : Res :=
  .next (issueBundle (oneMove (encodeTrig 5 6 m)) s)

/-- VSTS (R229). Strided vector store. -/
def execVsts (m : MoveHead) (s : State) : Res :=
  .next (issueBundle (oneMove (encodeTrig 5 7 m)) s)

/-- VGTH (R229). Gathers 128 words at offsets from t. -/
def execVgth (m : MoveHead) (s : State) : Res :=
  .next (issueBundle (oneMove (encodeTrig 5 8 m)) s)

/-- VSCT (R229). Scatters 128 words at offsets from t. -/
def execVsct (m : MoveHead) (s : State) : Res :=
  .next (issueBundle (oneMove (encodeTrig 5 9 m)) s)

/-- VLDB (R229). Loads one element and broadcasts it. -/
def execVldb (m : MoveHead) (s : State) : Res :=
  .next (issueBundle (oneMove (encodeTrig 5 10 m)) s)

/-- VLDM (R229). Masked vector load under MREG. -/
def execVldm (m : MoveHead) (s : State) : Res :=
  .next (issueBundle (oneMove (encodeTrig 5 11 m)) s)

/-- VSTM (R229). Masked vector store under MREG. -/
def execVstm (m : MoveHead) (s : State) : Res :=
  .next (issueBundle (oneMove (encodeTrig 5 12 m)) s)

/-- VPREF (R229). Prefetches every line of a 512-byte range. -/
def execVpref (m : MoveHead) (s : State) : Res :=
  .next (issueBundle (oneMove (encodeTrig 5 13 m)) s)

/-- AADD (R231). Atomic add returning the old value. -/
def execAadd (m : MoveHead) (s : State) : Res :=
  .next (issueBundle (oneMove (encodeTrig 6 4 m)) s)

/-- AINCB (R232). Atomic bounded increment, setting BOUND on refusal. -/
def execAincb (m : MoveHead) (s : State) : Res :=
  .next (issueBundle (oneMove (encodeTrig 6 5 m)) s)

/-- ACAS (R231). Atomic compare-and-swap. -/
def execAcas (m : MoveHead) (s : State) : Res :=
  .next (issueBundle (oneMove (encodeTrig 6 6 m)) s)

/-- ASWP (R231). Atomic swap. -/
def execAswp (m : MoveHead) (s : State) : Res :=
  .next (issueBundle (oneMove (encodeTrig 6 7 m)) s)

/-- AAND (R231). Atomic and. -/
def execAand (m : MoveHead) (s : State) : Res :=
  .next (issueBundle (oneMove (encodeTrig 6 8 m)) s)

/-- AOR (R231). Atomic or. -/
def execAor (m : MoveHead) (s : State) : Res :=
  .next (issueBundle (oneMove (encodeTrig 6 9 m)) s)

/-- AXOR (R231). Atomic xor. -/
def execAxor (m : MoveHead) (s : State) : Res :=
  .next (issueBundle (oneMove (encodeTrig 6 10 m)) s)

/-- AMIN (R231). Atomic signed minimum. -/
def execAmin (m : MoveHead) (s : State) : Res :=
  .next (issueBundle (oneMove (encodeTrig 6 11 m)) s)

/-- AMAX (R231). Atomic signed maximum. -/
def execAmax (m : MoveHead) (s : State) : Res :=
  .next (issueBundle (oneMove (encodeTrig 6 12 m)) s)

/-- AMINU (R231). Atomic unsigned minimum. -/
def execAminu (m : MoveHead) (s : State) : Res :=
  .next (issueBundle (oneMove (encodeTrig 6 13 m)) s)

/-- AMAXU (R231). Atomic unsigned maximum. -/
def execAmaxu (m : MoveHead) (s : State) : Res :=
  .next (issueBundle (oneMove (encodeTrig 6 14 m)) s)

/-- AFADD (R231). Atomic floating-point add rounded under RNE. -/
def execAfadd (m : MoveHead) (s : State) : Res :=
  .next (issueBundle (oneMove (encodeTrig 6 15 m)) s)

/-- AFMIN (R234). Atomic floating-point minimumNumber. -/
def execAfmin (m : MoveHead) (s : State) : Res :=
  .next (issueBundle (oneMove (encodeTrig 6 16 m)) s)

/-- AFMAX (R234). Atomic floating-point maximumNumber. -/
def execAfmax (m : MoveHead) (s : State) : Res :=
  .next (issueBundle (oneMove (encodeTrig 6 17 m)) s)

/-- APCAS (R235). Promote-acquire compare-and-swap at DEV scope. -/
def execApcas (m : MoveHead) (s : State) : Res :=
  .next (issueBundle (oneMove (encodeTrig 6 18 m)) s)

/-- APLD (R235). Promote-acquire load at DEV scope. -/
def execApld (m : MoveHead) (s : State) : Res :=
  .next (issueBundle (oneMove (encodeTrig 6 19 m)) s)

end Sys2Proof.Machine
end

