-- ==== Sys2Proof/Machine/SlotMoves.lean ====
section
/-! DEFINITION. The meanings of the whole bundle and of the moves that are no trigger (R31, R103, R109 to R111). Each is the issue of a bundle by the running context of the core in focus; `State.issueOn` in Issue.lean says what that does. -/

namespace Sys2Proof.Machine

/-- BUNDLE_ISSUE (R31). A core issues one bundle of a context: its moves, triggers, port writes and dispatches take effect in the fixed order, and the bundle's energy weight is charged. -/
def execBundleIssue (b : Bundle) (s : State) : Res :=
  .next (issueBundle b s)

/-- REGISTER_MOVE (R103). A plain move writes a register, visible from the next bundle. -/
def execRegisterMove (m : PlainHead) (d : BitVec 8) (s : State) : Res :=
  .next (issueBundle (oneMove (encodePlain m d.toNat)) s)

/-- PORT_A_WRITE (R103). A move sets a unit's sticky operand port a. -/
def execPortAWrite (m : PlainHead) (u : BitVec 4) (s : State) : Res :=
  .next (issueBundle (oneMove (encodePlain m (2 ^ 9 + u.toNat * 2 ^ 5))) s)

/-- PORT_B_WRITE (R103). A move sets a unit's sticky operand port b. -/
def execPortBWrite (m : PlainHead) (u : BitVec 4) (s : State) : Res :=
  .next (issueBundle (oneMove (encodePlain m (2 ^ 9 + u.toNat * 2 ^ 5 + 1))) s)

/-- PORT_D_OVERRIDE (R110). A move to port d sets a one-shot destination override for the unit's next trigger. -/
def execPortDOverride (m : PlainHead) (u : BitVec 4) (s : State) : Res :=
  .next (issueBundle (oneMove (encodePlain m (2 ^ 9 + u.toNat * 2 ^ 5 + 2))) s)

/-- PORT_CFG_WRITE (R111). A move sets a unit's configuration port, checked later at each trigger. -/
def execPortCfgWrite (m : PlainHead) (u : BitVec 4) (s : State) : Res :=
  .next (issueBundle (oneMove (encodePlain m (2 ^ 9 + u.toNat * 2 ^ 5 + 3))) s)

end Sys2Proof.Machine
end

