-- ==== Sys2Proof/Machine/SlotQueues.lean ====
section
/-! DEFINITION. The meanings of the matrix-slot and engine-slot words: the issue of a bundle that holds the word alone, which dispatches it. What a dispatched operation does when it issues is in Matrix.lean, Engine.lean, Copy.lean, Phaser.lean, Encoder.lean and Ckp.lean (R112 to R116, R193 to R219, R245 to R262). -/

namespace Sys2Proof.Machine

/-- MATRIX_NOP (R112). An empty matrix slot enters and leaves the matrix queue. -/
def execMatrixNop (s : State) : Res :=
  .next (issueBundle (oneMat 0) s)

/-- MCFG (R197). Sets the context's matrix configuration from a register. -/
def execMcfg (a : BitVec 4) (s : State) : Res :=
  .next (issueBundle (oneMat (matWord 1 0 a.toNat 0 0)) s)

/-- MMA (R200). Accumulates A x B panels into a tile over the declared beats. -/
def execMma (t : BitVec 3) (a : BitVec 4) (b : BitVec 4) (n : BitVec 8) (s : State) : Res :=
  .next (issueBundle (oneMat (matWord 2 t.toNat a.toNat b.toNat n.toNat)) s)

/-- MMAZ (R200). Clears the tile then accumulates A x B. -/
def execMmaz (t : BitVec 3) (a : BitVec 4) (b : BitVec 4) (n : BitVec 8) (s : State) : Res :=
  .next (issueBundle (oneMat (matWord 3 t.toNat a.toNat b.toNat n.toNat)) s)

/-- MMAR (R201). Accumulates like mma then writes column ranks to the partner tile. -/
def execMmar (t : BitVec 3) (a : BitVec 4) (b : BitVec 4) (n : BitVec 8) (s : State) : Res :=
  .next (issueBundle (oneMat (matWord 4 t.toNat a.toNat b.toNat n.toNat)) s)

/-- MMAP (R202). Accumulates A times Plesal-decoded B strips into a tile. -/
def execMmap (t : BitVec 3) (a : BitVec 4) (d : BitVec 4) (n : BitVec 8) (s : State) : Res :=
  .next (issueBundle (oneMat (matWord 5 t.toNat a.toNat d.toNat n.toNat)) s)

/-- ACCRD (R207). Copies a tile to local scratchpad, one row per beat. -/
def execAccrd (t : BitVec 3) (a : BitVec 4) (n : BitVec 8) (s : State) : Res :=
  .next (issueBundle (oneMat (matWord 6 t.toNat a.toNat 0 n.toNat)) s)

/-- ACCWR (R208). Writes scratchpad rows into a tile. -/
def execAccwr (t : BitVec 3) (a : BitVec 4) (n : BitVec 8) (s : State) : Res :=
  .next (issueBundle (oneMat (matWord 7 t.toNat a.toNat 0 n.toNat)) s)

/-- ACCCL (R209). Clears a tile to +0. -/
def execAcccl (t : BitVec 3) (s : State) : Res :=
  .next (issueBundle (oneMat (matWord 8 t.toNat 0 0 0)) s)

/-- PLDEF (R204). Loads a Plesal profile record and table into a decoder profile slot. -/
def execPldef (p : BitVec 3) (a : BitVec 4) (n : BitVec 8) (s : State) : Res :=
  .next (issueBundle (oneMat (matWord 9 p.toNat a.toNat 0 n.toNat)) s)

/-- MMRK (R210). Marks a point in the matrix queue with a sequence tag. -/
def execMmrk (g : BitVec 8) (s : State) : Res :=
  .next (issueBundle (oneMat (10 * 2 ^ 19 + g.toNat * 2 ^ 8)) s)

/-- ENGINE_NOP (R114). An empty engine slot enters and leaves the engine queue. -/
def execEngineNop (s : State) : Res :=
  .next (issueBundle (oneEng 0) s)

/-- CPY (R250). Queues a linear copy described by a 32-byte descriptor. -/
def execCpy (c : BitVec 5) (a : BitVec 4) (i : BitVec 10) (s : State) : Res :=
  .next (issueBundle (oneEng (engWord 1 c.toNat a.toNat i.toNat)) s)

/-- CPN (R330). Queues a nested copy of up to six dimensions. -/
def execCpn (c : BitVec 5) (a : BitVec 4) (i : BitVec 10) (s : State) : Res :=
  .next (issueBundle (oneEng (engWord 2 c.toNat a.toNat i.toNat)) s)

/-- CPZ (R250). Queues a copy that decompresses restricted Lempel-Ziv blocks. -/
def execCpz (c : BitVec 5) (a : BitVec 4) (i : BitVec 10) (s : State) : Res :=
  .next (issueBundle (oneEng (engWord 3 c.toNat a.toNat i.toNat)) s)

/-- CPC (R334). Queues a copy that compresses into blocks. -/
def execCpc (c : BitVec 5) (a : BitVec 4) (i : BitVec 10) (s : State) : Res :=
  .next (issueBundle (oneEng (engWord 4 c.toNat a.toNat i.toNat)) s)

/-- CPK (R250). Queues a copy checking CRC-32C per 4 KiB chunk. -/
def execCpk (c : BitVec 5) (a : BitVec 4) (i : BitVec 10) (s : State) : Res :=
  .next (issueBundle (oneEng (engWord 5 c.toNat a.toNat i.toNat)) s)

/-- CPE (R252). Queues a copy armed on an mmrk tag. -/
def execCpe (c : BitVec 5) (a : BitVec 4) (i : BitVec 10) (s : State) : Res :=
  .next (issueBundle (oneEng (engWord 6 c.toNat a.toNat i.toNat)) s)

/-- SEND (R254). Sends a payload to a receive ring on a target die. -/
def execSend (c : BitVec 5) (a : BitVec 4) (i : BitVec 10) (s : State) : Res :=
  .next (issueBundle (oneEng (engWord 7 c.toNat a.toNat i.toNat)) s)

/-- RECV (R254). Takes the next message of a ring on this die into scratchpad. -/
def execRecv (c : BitVec 5) (a : BitVec 4) (i : BitVec 10) (s : State) : Res :=
  .next (issueBundle (oneEng (engWord 8 c.toNat a.toNat i.toNat)) s)

/-- CHW (R253). Holds the engine queue until a channel watermark reaches v, then acquires. -/
def execChw (c : BitVec 5) (a : BitVec 4) (i : BitVec 10) (s : State) : Res :=
  .next (issueBundle (oneEng (engWord 9 c.toNat a.toNat i.toNat)) s)

/-- CHI (R253). Arms a USER_INTERRUPT for when a channel watermark reaches v. -/
def execChi (c : BitVec 5) (a : BitVec 4) (i : BitVec 10) (s : State) : Res :=
  .next (issueBundle (oneEng (engWord 10 c.toNat a.toNat i.toNat)) s)

/-- PHR (R257). Registers the context with a phaser in a membership mode. -/
def execPhr (p : BitVec 5) (a : BitVec 4) (k : BitVec 1) (m : BitVec 2) (s : State) : Res :=
  .next (issueBundle (oneEng (engWord 11 p.toNat a.toNat (k.toNat * 128 + m.toNat))) s)

/-- PHD (R257). Deregisters the context from a phaser. -/
def execPhd (p : BitVec 5) (a : BitVec 4) (k : BitVec 1) (s : State) : Res :=
  .next (issueBundle (oneEng (engWord 12 p.toNat a.toNat (k.toNat * 128))) s)

/-- PHS (R257). Signals the member's next signal phase. -/
def execPhs (p : BitVec 5) (a : BitVec 4) (k : BitVec 1) (s : State) : Res :=
  .next (issueBundle (oneEng (engWord 13 p.toNat a.toNat (k.toNat * 128))) s)

/-- PHB (R257). Adds expected bytes to a phase and signals it. -/
def execPhb (p : BitVec 5) (a : BitVec 4) (k : BitVec 1) (s : State) : Res :=
  .next (issueBundle (oneEng (engWord 14 p.toNat a.toNat (k.toNat * 128))) s)

/-- PHW (R257). Holds the engine queue until the member's next wait phase completes. -/
def execPhw (p : BitVec 5) (a : BitVec 4) (k : BitVec 1) (s : State) : Res :=
  .next (issueBundle (oneEng (engWord 15 p.toNat a.toNat (k.toNat * 128))) s)

/-- PLE (R259). Sends a Plesal encode command to the cluster encoder. -/
def execPle (a : BitVec 4) (i : BitVec 10) (s : State) : Res :=
  .next (issueBundle (oneEng (engWord 16 0 a.toNat i.toNat)) s)

/-- PLU (R260). Sends a Plesal single-weight update command to the encoder. -/
def execPlu (a : BitVec 4) (i : BitVec 10) (s : State) : Res :=
  .next (issueBundle (oneEng (engWord 17 0 a.toNat i.toNat)) s)

/-- CKP_START (R262). Starts repeated checkpoint passes over a virtual range. -/
def execCkpStart (a : BitVec 4) (s : State) : Res :=
  .next (issueBundle (oneEng (engWord 18 0 a.toNat 0)) s)

/-- CKP_STOP (R261). Ends checkpoint passes after the current page. -/
def execCkpStop (a : BitVec 4) (s : State) : Res :=
  .next (issueBundle (oneEng (engWord 18 0 a.toNat 1)) s)

/-- CKP_QUIESCE (R418). Runs a final checkpoint pass and writes its status record. -/
def execCkpQuiesce (a : BitVec 4) (s : State) : Res :=
  .next (issueBundle (oneEng (engWord 18 0 a.toNat 2)) s)

/-- CKP_STATUS (R262). Writes the checkpoint status record at once. -/
def execCkpStatus (a : BitVec 4) (s : State) : Res :=
  .next (issueBundle (oneEng (engWord 18 0 a.toNat 3)) s)

end Sys2Proof.Machine
end

