-- ==== Sys2Proof/Machine/SlotScalar.lean ====
section
/-! DEFINITION. The meanings of the trigger moves of SX0, SX1 and SM: the issue of a bundle that holds the move alone. What the unit computes is in Scalar.lean (R122 to R126). -/

namespace Sys2Proof.Machine

/-- SX_ADD (R123). Scalar 64-bit wrapping add of t and a. -/
def execSxAdd (m : MoveHead) (u : BitVec 1) (s : State) : Res :=
  .next (issueBundle (oneMove (encodeTrig u.toNat 4 m)) s)

/-- SX_SUB (R123). Scalar wrapping subtract t minus a. -/
def execSxSub (m : MoveHead) (u : BitVec 1) (s : State) : Res :=
  .next (issueBundle (oneMove (encodeTrig u.toNat 5 m)) s)

/-- SX_AND (R123). Scalar bitwise and. -/
def execSxAnd (m : MoveHead) (u : BitVec 1) (s : State) : Res :=
  .next (issueBundle (oneMove (encodeTrig u.toNat 6 m)) s)

/-- SX_OR (R123). Scalar bitwise or. -/
def execSxOr (m : MoveHead) (u : BitVec 1) (s : State) : Res :=
  .next (issueBundle (oneMove (encodeTrig u.toNat 7 m)) s)

/-- SX_XOR (R123). Scalar bitwise xor. -/
def execSxXor (m : MoveHead) (u : BitVec 1) (s : State) : Res :=
  .next (issueBundle (oneMove (encodeTrig u.toNat 8 m)) s)

/-- SX_SHL (R123). Scalar shift left by a[5:0]. -/
def execSxShl (m : MoveHead) (u : BitVec 1) (s : State) : Res :=
  .next (issueBundle (oneMove (encodeTrig u.toNat 9 m)) s)

/-- SX_SHR (R123). Scalar logical shift right by a[5:0]. -/
def execSxShr (m : MoveHead) (u : BitVec 1) (s : State) : Res :=
  .next (issueBundle (oneMove (encodeTrig u.toNat 10 m)) s)

/-- SX_SAR (R123). Scalar arithmetic shift right by a[5:0]. -/
def execSxSar (m : MoveHead) (u : BitVec 1) (s : State) : Res :=
  .next (issueBundle (oneMove (encodeTrig u.toNat 11 m)) s)

/-- SX_MIN (R123). Scalar signed minimum. -/
def execSxMin (m : MoveHead) (u : BitVec 1) (s : State) : Res :=
  .next (issueBundle (oneMove (encodeTrig u.toNat 12 m)) s)

/-- SX_MAX (R123). Scalar signed maximum. -/
def execSxMax (m : MoveHead) (u : BitVec 1) (s : State) : Res :=
  .next (issueBundle (oneMove (encodeTrig u.toNat 13 m)) s)

/-- SX_MINU (R123). Scalar unsigned minimum. -/
def execSxMinu (m : MoveHead) (u : BitVec 1) (s : State) : Res :=
  .next (issueBundle (oneMove (encodeTrig u.toNat 14 m)) s)

/-- SX_MAXU (R123). Scalar unsigned maximum. -/
def execSxMaxu (m : MoveHead) (u : BitVec 1) (s : State) : Res :=
  .next (issueBundle (oneMove (encodeTrig u.toNat 15 m)) s)

/-- SX_CEQ (R123). Scalar compare equal, yielding 0 or 1. -/
def execSxCeq (m : MoveHead) (u : BitVec 1) (s : State) : Res :=
  .next (issueBundle (oneMove (encodeTrig u.toNat 16 m)) s)

/-- SX_CNE (R123). Scalar compare not equal. -/
def execSxCne (m : MoveHead) (u : BitVec 1) (s : State) : Res :=
  .next (issueBundle (oneMove (encodeTrig u.toNat 17 m)) s)

/-- SX_CLT (R123). Scalar signed compare less than. -/
def execSxClt (m : MoveHead) (u : BitVec 1) (s : State) : Res :=
  .next (issueBundle (oneMove (encodeTrig u.toNat 18 m)) s)

/-- SX_CLTU (R123). Scalar unsigned compare less than. -/
def execSxCltu (m : MoveHead) (u : BitVec 1) (s : State) : Res :=
  .next (issueBundle (oneMove (encodeTrig u.toNat 19 m)) s)

/-- SX_CLE (R123). Scalar signed compare less or equal. -/
def execSxCle (m : MoveHead) (u : BitVec 1) (s : State) : Res :=
  .next (issueBundle (oneMove (encodeTrig u.toNat 20 m)) s)

/-- SX_CLEU (R123). Scalar unsigned compare less or equal. -/
def execSxCleu (m : MoveHead) (u : BitVec 1) (s : State) : Res :=
  .next (issueBundle (oneMove (encodeTrig u.toNat 21 m)) s)

/-- SX_SEL (R123). Scalar select of t or a by b[0]. -/
def execSxSel (m : MoveHead) (u : BitVec 1) (s : State) : Res :=
  .next (issueBundle (oneMove (encodeTrig u.toNat 22 m)) s)

/-- SX_CLZ (R123). Count of leading zero bits of t. -/
def execSxClz (m : MoveHead) (u : BitVec 1) (s : State) : Res :=
  .next (issueBundle (oneMove (encodeTrig u.toNat 23 m)) s)

/-- SX_POPC (R123). Count of one bits of t. -/
def execSxPopc (m : MoveHead) (u : BitVec 1) (s : State) : Res :=
  .next (issueBundle (oneMove (encodeTrig u.toNat 24 m)) s)

/-- SX_SEXT (R123). Sign extension of t from a[6:0] bits. -/
def execSxSext (m : MoveHead) (u : BitVec 1) (s : State) : Res :=
  .next (issueBundle (oneMove (encodeTrig u.toNat 25 m)) s)

/-- SX_ADDS (R123). Scalar signed saturating add. -/
def execSxAdds (m : MoveHead) (u : BitVec 1) (s : State) : Res :=
  .next (issueBundle (oneMove (encodeTrig u.toNat 26 m)) s)

/-- SX_BFX (R124). Bit-field extract with position and width from a. -/
def execSxBfx (m : MoveHead) (u : BitVec 1) (s : State) : Res :=
  .next (issueBundle (oneMove (encodeTrig u.toNat 27 m)) s)

/-- SX_BFI (R124). Bit-field insert of b into t at the field given by a. -/
def execSxBfi (m : MoveHead) (u : BitVec 1) (s : State) : Res :=
  .next (issueBundle (oneMove (encodeTrig u.toNat 28 m)) s)

/-- SX_PASS (R123). Passes t through as the result. -/
def execSxPass (m : MoveHead) (u : BitVec 1) (s : State) : Res :=
  .next (issueBundle (oneMove (encodeTrig u.toNat 29 m)) s)

/-- SX_PACK (R123). Packs the low words of t and a into one dword. -/
def execSxPack (m : MoveHead) (u : BitVec 1) (s : State) : Res :=
  .next (issueBundle (oneMove (encodeTrig u.toNat 30 m)) s)

/-- SM_MUL (R125). Wrapping 64-bit multiply, latency 3. -/
def execSmMul (m : MoveHead) (s : State) : Res :=
  .next (issueBundle (oneMove (encodeTrig 2 4 m)) s)

/-- SM_MULH (R125). High half of the signed 128-bit product. -/
def execSmMulh (m : MoveHead) (s : State) : Res :=
  .next (issueBundle (oneMove (encodeTrig 2 5 m)) s)

/-- SM_MULHU (R125). High half of the unsigned 128-bit product. -/
def execSmMulhu (m : MoveHead) (s : State) : Res :=
  .next (issueBundle (oneMove (encodeTrig 2 6 m)) s)

/-- SM_MADD (R125). Wrapping multiply-add t x a + b. -/
def execSmMadd (m : MoveHead) (s : State) : Res :=
  .next (issueBundle (oneMove (encodeTrig 2 7 m)) s)

/-- SM_DIV (R126). Signed division, latency 24, never trapping. -/
def execSmDiv (m : MoveHead) (s : State) : Res :=
  .next (issueBundle (oneMove (encodeTrig 2 8 m)) s)

/-- SM_DIVU (R126). Unsigned division. -/
def execSmDivu (m : MoveHead) (s : State) : Res :=
  .next (issueBundle (oneMove (encodeTrig 2 9 m)) s)

/-- SM_REM (R126). Signed remainder. -/
def execSmRem (m : MoveHead) (s : State) : Res :=
  .next (issueBundle (oneMove (encodeTrig 2 10 m)) s)

/-- SM_REMU (R126). Unsigned remainder. -/
def execSmRemu (m : MoveHead) (s : State) : Res :=
  .next (issueBundle (oneMove (encodeTrig 2 11 m)) s)

end Sys2Proof.Machine
end

