-- ==== Sys2Proof/Machine/SlotStream.lean ====
section
/-! DEFINITION. The meanings of the trigger moves of SA: the issue of a bundle that holds the move alone. What the unit does is in StreamAcc.lean (R236 to R244, R306 to R320). -/

namespace Sys2Proof.Machine

/-- SADD (R240). Adds COUNT elements exactly into a stream accumulator row, updating T and S. -/
def execSadd (m : MoveHead) (s : State) : Res :=
  .next (issueBundle (oneMove (encodeTrig 11 4 m)) s)

/-- SADDC (R240). Adds one accumulator-tile row into a stream accumulator row. -/
def execSaddc (m : MoveHead) (s : State) : Res :=
  .next (issueBundle (oneMove (encodeTrig 11 5 m)) s)

/-- SRDN (R242). Reads normalised elements of a row group in RMS or LN mode. -/
def execSrdn (m : MoveHead) (s : State) : Res :=
  .next (issueBundle (oneMove (encodeTrig 11 6 m)) s)

/-- SHDR (R243). Writes a row header, clearing and validating the row. -/
def execShdr (m : MoveHead) (s : State) : Res :=
  .next (issueBundle (oneMove (encodeTrig 11 7 m)) s)

/-- SCLR (R243). Clears a row's elements, sums and flags. -/
def execSclr (m : MoveHead) (s : State) : Res :=
  .next (issueBundle (oneMove (encodeTrig 11 8 m)) s)

/-- SEVT (R244). Writes an image of the row to scratchpad and clears it. -/
def execSevt (m : MoveHead) (s : State) : Res :=
  .next (issueBundle (oneMove (encodeTrig 11 9 m)) s)

/-- SLDR (R316). Loads an EXACT or F32 image back into a valid row. -/
def execSldr (m : MoveHead) (s : State) : Res :=
  .next (issueBundle (oneMove (encodeTrig 11 10 m)) s)

/-- SSTT (R238). Returns a row's state word. -/
def execSstt (m : MoveHead) (s : State) : Res :=
  .next (issueBundle (oneMove (encodeTrig 11 11 m)) s)

end Sys2Proof.Machine
end

