-- ==== Sys2Proof/Machine/SlotVector.lean ====
section
/-! DEFINITION. The meanings of the trigger moves of VA0, VA1, VF and VX: the issue of a bundle that holds the move alone. What the units compute is in Vector.lean, Special.lean and CrossLane.lean (R157 to R192). -/

namespace Sys2Proof.Machine

/-- VA_ADD (R165). Element-wise add rounded once. -/
def execVaAdd (m : MoveHead) (u : BitVec 1) (s : State) : Res :=
  .next (issueBundle (oneMove (encodeTrig (7 + u.toNat) 4 m)) s)

/-- VA_SUB (R165). Element-wise subtract. -/
def execVaSub (m : MoveHead) (u : BitVec 1) (s : State) : Res :=
  .next (issueBundle (oneMove (encodeTrig (7 + u.toNat) 5 m)) s)

/-- VA_MUL (R165). Element-wise multiply, latency 5. -/
def execVaMul (m : MoveHead) (u : BitVec 1) (s : State) : Res :=
  .next (issueBundle (oneMove (encodeTrig (7 + u.toNat) 6 m)) s)

/-- VA_FMA (R165). Fused a x b + t. -/
def execVaFma (m : MoveHead) (u : BitVec 1) (s : State) : Res :=
  .next (issueBundle (oneMove (encodeTrig (7 + u.toNat) 7 m)) s)

/-- VA_FMS (R165). Fused a x b - t. -/
def execVaFms (m : MoveHead) (u : BitVec 1) (s : State) : Res :=
  .next (issueBundle (oneMove (encodeTrig (7 + u.toNat) 8 m)) s)

/-- VA_MIN (R167). Element-wise minimumNumber or integer minimum. -/
def execVaMin (m : MoveHead) (u : BitVec 1) (s : State) : Res :=
  .next (issueBundle (oneMove (encodeTrig (7 + u.toNat) 9 m)) s)

/-- VA_MAX (R167). Element-wise maximumNumber or integer maximum. -/
def execVaMax (m : MoveHead) (u : BitVec 1) (s : State) : Res :=
  .next (issueBundle (oneMove (encodeTrig (7 + u.toNat) 10 m)) s)

/-- VA_ABS (R168). Element-wise absolute value. -/
def execVaAbs (m : MoveHead) (u : BitVec 1) (s : State) : Res :=
  .next (issueBundle (oneMove (encodeTrig (7 + u.toNat) 11 m)) s)

/-- VA_NEG (R168). Element-wise negation. -/
def execVaNeg (m : MoveHead) (u : BitVec 1) (s : State) : Res :=
  .next (issueBundle (oneMove (encodeTrig (7 + u.toNat) 12 m)) s)

/-- VA_CEQ (R172). Compare equal into a 128-bit mask. -/
def execVaCeq (m : MoveHead) (u : BitVec 1) (s : State) : Res :=
  .next (issueBundle (oneMove (encodeTrig (7 + u.toNat) 13 m)) s)

/-- VA_CLT (R172). Compare less than into a mask. -/
def execVaClt (m : MoveHead) (u : BitVec 1) (s : State) : Res :=
  .next (issueBundle (oneMove (encodeTrig (7 + u.toNat) 14 m)) s)

/-- VA_CLE (R172). Compare less or equal into a mask. -/
def execVaCle (m : MoveHead) (u : BitVec 1) (s : State) : Res :=
  .next (issueBundle (oneMove (encodeTrig (7 + u.toNat) 15 m)) s)

/-- VA_CUN (R172). Compare unordered into a mask. -/
def execVaCun (m : MoveHead) (u : BitVec 1) (s : State) : Res :=
  .next (issueBundle (oneMove (encodeTrig (7 + u.toNat) 16 m)) s)

/-- VA_SEL (R173). Selects elements of a over t where mask b is set. -/
def execVaSel (m : MoveHead) (u : BitVec 1) (s : State) : Res :=
  .next (issueBundle (oneMove (encodeTrig (7 + u.toNat) 17 m)) s)

/-- VA_CVT (R177). Converts elements from FMT to DFMT, narrowing or widening by part. -/
def execVaCvt (m : MoveHead) (u : BitVec 1) (s : State) : Res :=
  .next (issueBundle (oneMove (encodeTrig (7 + u.toNat) 18 m)) s)

/-- VA_AND (R174). 4,096-bit and. -/
def execVaAnd (m : MoveHead) (u : BitVec 1) (s : State) : Res :=
  .next (issueBundle (oneMove (encodeTrig (7 + u.toNat) 19 m)) s)

/-- VA_OR (R174). 4,096-bit or. -/
def execVaOr (m : MoveHead) (u : BitVec 1) (s : State) : Res :=
  .next (issueBundle (oneMove (encodeTrig (7 + u.toNat) 20 m)) s)

/-- VA_XOR (R174). 4,096-bit xor. -/
def execVaXor (m : MoveHead) (u : BitVec 1) (s : State) : Res :=
  .next (issueBundle (oneMove (encodeTrig (7 + u.toNat) 21 m)) s)

/-- VA_SHL (R175). Element-wise shift left. -/
def execVaShl (m : MoveHead) (u : BitVec 1) (s : State) : Res :=
  .next (issueBundle (oneMove (encodeTrig (7 + u.toNat) 22 m)) s)

/-- VA_SHR (R175). Element-wise logical shift right. -/
def execVaShr (m : MoveHead) (u : BitVec 1) (s : State) : Res :=
  .next (issueBundle (oneMove (encodeTrig (7 + u.toNat) 23 m)) s)

/-- VA_SAR (R175). Element-wise arithmetic shift right. -/
def execVaSar (m : MoveHead) (u : BitVec 1) (s : State) : Res :=
  .next (issueBundle (oneMove (encodeTrig (7 + u.toNat) 24 m)) s)

/-- VA_SCL (R171). Scales elements by 2 to the power a. -/
def execVaScl (m : MoveHead) (u : BitVec 1) (s : State) : Res :=
  .next (issueBundle (oneMove (encodeTrig (7 + u.toNat) 25 m)) s)

/-- VA_CLMP (R169). Clamps t between a and b. -/
def execVaClmp (m : MoveHead) (u : BitVec 1) (s : State) : Res :=
  .next (issueBundle (oneMove (encodeTrig (7 + u.toNat) 26 m)) s)

/-- VA_RND (R170). Rounds elements to integers under RM. -/
def execVaRnd (m : MoveHead) (u : BitVec 1) (s : State) : Res :=
  .next (issueBundle (oneMove (encodeTrig (7 + u.toNat) 27 m)) s)

/-- VA_QNT (R178). Block-quantises to an MX format, delivering elements or scales. -/
def execVaQnt (m : MoveHead) (u : BitVec 1) (s : State) : Res :=
  .next (issueBundle (oneMove (encodeTrig (7 + u.toNat) 28 m)) s)

/-- VA_DQN (R179). Dequantises MX elements with their E8M0 scales. -/
def execVaDqn (m : MoveHead) (u : BitVec 1) (s : State) : Res :=
  .next (issueBundle (oneMove (encodeTrig (7 + u.toNat) 29 m)) s)

/-- VA_MOV (R174). Passes the vector t through. -/
def execVaMov (m : MoveHead) (u : BitVec 1) (s : State) : Res :=
  .next (issueBundle (oneMove (encodeTrig (7 + u.toNat) 30 m)) s)

/-- RSQ (R180). Correctly rounded reciprocal square root. -/
def execRsq (m : MoveHead) (s : State) : Res :=
  .next (issueBundle (oneMove (encodeTrig 9 4 m)) s)

/-- RCP (R180). Correctly rounded reciprocal. -/
def execRcp (m : MoveHead) (s : State) : Res :=
  .next (issueBundle (oneMove (encodeTrig 9 5 m)) s)

/-- SQRT (R180). Correctly rounded square root. -/
def execSqrt (m : MoveHead) (s : State) : Res :=
  .next (issueBundle (oneMove (encodeTrig 9 6 m)) s)

/-- EXP2 (R180). Correctly rounded 2 to the x. -/
def execExp2 (m : MoveHead) (s : State) : Res :=
  .next (issueBundle (oneMove (encodeTrig 9 7 m)) s)

/-- LOG2 (R180). Correctly rounded base-2 logarithm. -/
def execLog2 (m : MoveHead) (s : State) : Res :=
  .next (issueBundle (oneMove (encodeTrig 9 8 m)) s)

/-- EXP (R180). Correctly rounded e to the x. -/
def execExp (m : MoveHead) (s : State) : Res :=
  .next (issueBundle (oneMove (encodeTrig 9 9 m)) s)

/-- TANH (R180). Correctly rounded tanh. -/
def execTanh (m : MoveHead) (s : State) : Res :=
  .next (issueBundle (oneMove (encodeTrig 9 10 m)) s)

/-- SIGM (R180). Correctly rounded logistic sigmoid. -/
def execSigm (m : MoveHead) (s : State) : Res :=
  .next (issueBundle (oneMove (encodeTrig 9 11 m)) s)

/-- SILU (R180). Correctly rounded SiLU. -/
def execSilu (m : MoveHead) (s : State) : Res :=
  .next (issueBundle (oneMove (encodeTrig 9 12 m)) s)

/-- RSUM (R184). Segmented pairwise-tree sum. -/
def execRsum (m : MoveHead) (s : State) : Res :=
  .next (issueBundle (oneMove (encodeTrig 10 4 m)) s)

/-- RMAX (R185). Segmented maximum. -/
def execRmax (m : MoveHead) (s : State) : Res :=
  .next (issueBundle (oneMove (encodeTrig 10 5 m)) s)

/-- RMIN (R185). Segmented minimum. -/
def execRmin (m : MoveHead) (s : State) : Res :=
  .next (issueBundle (oneMove (encodeTrig 10 6 m)) s)

/-- BCST (R187). Broadcasts one element per segment. -/
def execBcst (m : MoveHead) (s : State) : Res :=
  .next (issueBundle (oneMove (encodeTrig 10 7 m)) s)

/-- PERM (R188). Permutes elements by indexes in b. -/
def execPerm (m : MoveHead) (s : State) : Res :=
  .next (issueBundle (oneMove (encodeTrig 10 8 m)) s)

/-- GXCH (R188). Exchanges lane groups by a selector in a. -/
def execGxch (m : MoveHead) (s : State) : Res :=
  .next (issueBundle (oneMove (encodeTrig 10 9 m)) s)

/-- ROT (R187). Rotates each segment by a. -/
def execRot (m : MoveHead) (s : State) : Res :=
  .next (issueBundle (oneMove (encodeTrig 10 10 m)) s)

/-- SCAN (R186). Segmented running sum rounded per step. -/
def execScan (m : MoveHead) (s : State) : Res :=
  .next (issueBundle (oneMove (encodeTrig 10 11 m)) s)

/-- CMPR (R189). Compresses elements selected by mask b. -/
def execCmpr (m : MoveHead) (s : State) : Res :=
  .next (issueBundle (oneMove (encodeTrig 10 12 m)) s)

/-- EXPD (R189). Expands elements into positions set in mask b. -/
def execExpd (m : MoveHead) (s : State) : Res :=
  .next (issueBundle (oneMove (encodeTrig 10 13 m)) s)

/-- POPM (R190). Counts one bits of the mask in t. -/
def execPopm (m : MoveHead) (s : State) : Res :=
  .next (issueBundle (oneMove (encodeTrig 10 14 m)) s)

/-- FFS (R190). Finds the lowest set bit of t. -/
def execFfs (m : MoveHead) (s : State) : Res :=
  .next (issueBundle (oneMove (encodeTrig 10 15 m)) s)

/-- VTOS (R191). Extracts element a of t as a scalar. -/
def execVtos (m : MoveHead) (s : State) : Res :=
  .next (issueBundle (oneMove (encodeTrig 10 16 m)) s)

/-- STOV (R191). Inserts scalar t into element a of b. -/
def execStov (m : MoveHead) (s : State) : Res :=
  .next (issueBundle (oneMove (encodeTrig 10 17 m)) s)

end Sys2Proof.Machine
end

