-- ==== Sys2Proof/Machine/Dispatch.lean ====
section
/-! DEFINITION. The one dispatch of the machine: each instruction to its meaning. -/

namespace Sys2Proof.Machine

/-- What an instruction does to the state. -/
def exec (i : Instr) (s : State) : Host.Outcome State Fault Refusal :=
  match i with
  | .bundleIssue b => Sys2Proof.Machine.execBundleIssue b s
  | .grantPeriodStart pair => Sys2Proof.Machine.execGrantPeriodStart pair s
  | .opMoveComplete pair => Sys2Proof.Machine.execOpMoveComplete pair s
  | .loopCountExpire core ctx lvl => Sys2Proof.Machine.execLoopCountExpire core ctx lvl s
  | .contextSwitchOut core => Sys2Proof.Machine.execContextSwitchOut core s
  | .contextResume core ctx => Sys2Proof.Machine.execContextResume core ctx s
  | .stallInPlace core => Sys2Proof.Machine.execStallInPlace core s
  | .stallEnd core => Sys2Proof.Machine.execStallEnd core s
  | .resultWrite core ctx => Sys2Proof.Machine.execResultWrite core ctx s
  | .memoryDataArrival core => Sys2Proof.Machine.execMemoryDataArrival core s
  | .bundleFetchFill core => Sys2Proof.Machine.execBundleFetchFill core s
  | .registerMove m d => Sys2Proof.Machine.execRegisterMove m d s
  | .portAWrite m u => Sys2Proof.Machine.execPortAWrite m u s
  | .portBWrite m u => Sys2Proof.Machine.execPortBWrite m u s
  | .portDOverride m u => Sys2Proof.Machine.execPortDOverride m u s
  | .portCfgWrite m u => Sys2Proof.Machine.execPortCfgWrite m u s
  | .sxAdd m u => Sys2Proof.Machine.execSxAdd m u s
  | .sxSub m u => Sys2Proof.Machine.execSxSub m u s
  | .sxAnd m u => Sys2Proof.Machine.execSxAnd m u s
  | .sxOr m u => Sys2Proof.Machine.execSxOr m u s
  | .sxXor m u => Sys2Proof.Machine.execSxXor m u s
  | .sxShl m u => Sys2Proof.Machine.execSxShl m u s
  | .sxShr m u => Sys2Proof.Machine.execSxShr m u s
  | .sxSar m u => Sys2Proof.Machine.execSxSar m u s
  | .sxMin m u => Sys2Proof.Machine.execSxMin m u s
  | .sxMax m u => Sys2Proof.Machine.execSxMax m u s
  | .sxMinu m u => Sys2Proof.Machine.execSxMinu m u s
  | .sxMaxu m u => Sys2Proof.Machine.execSxMaxu m u s
  | .sxCeq m u => Sys2Proof.Machine.execSxCeq m u s
  | .sxCne m u => Sys2Proof.Machine.execSxCne m u s
  | .sxClt m u => Sys2Proof.Machine.execSxClt m u s
  | .sxCltu m u => Sys2Proof.Machine.execSxCltu m u s
  | .sxCle m u => Sys2Proof.Machine.execSxCle m u s
  | .sxCleu m u => Sys2Proof.Machine.execSxCleu m u s
  | .sxSel m u => Sys2Proof.Machine.execSxSel m u s
  | .sxClz m u => Sys2Proof.Machine.execSxClz m u s
  | .sxPopc m u => Sys2Proof.Machine.execSxPopc m u s
  | .sxSext m u => Sys2Proof.Machine.execSxSext m u s
  | .sxAdds m u => Sys2Proof.Machine.execSxAdds m u s
  | .sxBfx m u => Sys2Proof.Machine.execSxBfx m u s
  | .sxBfi m u => Sys2Proof.Machine.execSxBfi m u s
  | .sxPass m u => Sys2Proof.Machine.execSxPass m u s
  | .sxPack m u => Sys2Proof.Machine.execSxPack m u s
  | .smMul m => Sys2Proof.Machine.execSmMul m s
  | .smMulh m => Sys2Proof.Machine.execSmMulh m s
  | .smMulhu m => Sys2Proof.Machine.execSmMulhu m s
  | .smMadd m => Sys2Proof.Machine.execSmMadd m s
  | .smDiv m => Sys2Proof.Machine.execSmDiv m s
  | .smDivu m => Sys2Proof.Machine.execSmDivu m s
  | .smRem m => Sys2Proof.Machine.execSmRem m s
  | .smRemu m => Sys2Proof.Machine.execSmRemu m s
  | .jmp m => Sys2Proof.Machine.execJmp m s
  | .br m => Sys2Proof.Machine.execBr m s
  | .bnz m => Sys2Proof.Machine.execBnz m s
  | .bz m => Sys2Proof.Machine.execBz m s
  | .call m => Sys2Proof.Machine.execCall m s
  | .ret m => Sys2Proof.Machine.execRet m s
  | .loop m => Sys2Proof.Machine.execLoop m s
  | .mloop m => Sys2Proof.Machine.execMloop m s
  | .lbrk m => Sys2Proof.Machine.execLbrk m s
  | .rept m => Sys2Proof.Machine.execRept m s
  | .trap m => Sys2Proof.Machine.execTrap m s
  | .eret m => Sys2Proof.Machine.execEret m s
  | .wait m => Sys2Proof.Machine.execWait m s
  | .warm m => Sys2Proof.Machine.execWarm m s
  | .sysr m => Sys2Proof.Machine.execSysr m s
  | .sysw m => Sys2Proof.Machine.execSysw m s
  | .halt m => Sys2Proof.Machine.execHalt m s
  | .ldb m => Sys2Proof.Machine.execLdb m s
  | .ldbu m => Sys2Proof.Machine.execLdbu m s
  | .ldh m => Sys2Proof.Machine.execLdh m s
  | .ldhu m => Sys2Proof.Machine.execLdhu m s
  | .ldw m => Sys2Proof.Machine.execLdw m s
  | .ldwu m => Sys2Proof.Machine.execLdwu m s
  | .ldd m => Sys2Proof.Machine.execLdd m s
  | .stb m => Sys2Proof.Machine.execStb m s
  | .sth m => Sys2Proof.Machine.execSth m s
  | .stw m => Sys2Proof.Machine.execStw m s
  | .std m => Sys2Proof.Machine.execStd m s
  | .fence m => Sys2Proof.Machine.execFence m s
  | .pref m => Sys2Proof.Machine.execPref m s
  | .wbl m => Sys2Proof.Machine.execWbl m s
  | .invl m => Sys2Proof.Machine.execInvl m s
  | .vld m => Sys2Proof.Machine.execVld m s
  | .vst m => Sys2Proof.Machine.execVst m s
  | .vlds m => Sys2Proof.Machine.execVlds m s
  | .vsts m => Sys2Proof.Machine.execVsts m s
  | .vgth m => Sys2Proof.Machine.execVgth m s
  | .vsct m => Sys2Proof.Machine.execVsct m s
  | .vldb m => Sys2Proof.Machine.execVldb m s
  | .vldm m => Sys2Proof.Machine.execVldm m s
  | .vstm m => Sys2Proof.Machine.execVstm m s
  | .vpref m => Sys2Proof.Machine.execVpref m s
  | .aadd m => Sys2Proof.Machine.execAadd m s
  | .aincb m => Sys2Proof.Machine.execAincb m s
  | .acas m => Sys2Proof.Machine.execAcas m s
  | .aswp m => Sys2Proof.Machine.execAswp m s
  | .aand m => Sys2Proof.Machine.execAand m s
  | .aor m => Sys2Proof.Machine.execAor m s
  | .axor m => Sys2Proof.Machine.execAxor m s
  | .amin m => Sys2Proof.Machine.execAmin m s
  | .amax m => Sys2Proof.Machine.execAmax m s
  | .aminu m => Sys2Proof.Machine.execAminu m s
  | .amaxu m => Sys2Proof.Machine.execAmaxu m s
  | .afadd m => Sys2Proof.Machine.execAfadd m s
  | .afmin m => Sys2Proof.Machine.execAfmin m s
  | .afmax m => Sys2Proof.Machine.execAfmax m s
  | .apcas m => Sys2Proof.Machine.execApcas m s
  | .apld m => Sys2Proof.Machine.execApld m s
  | .vaAdd m u => Sys2Proof.Machine.execVaAdd m u s
  | .vaSub m u => Sys2Proof.Machine.execVaSub m u s
  | .vaMul m u => Sys2Proof.Machine.execVaMul m u s
  | .vaFma m u => Sys2Proof.Machine.execVaFma m u s
  | .vaFms m u => Sys2Proof.Machine.execVaFms m u s
  | .vaMin m u => Sys2Proof.Machine.execVaMin m u s
  | .vaMax m u => Sys2Proof.Machine.execVaMax m u s
  | .vaAbs m u => Sys2Proof.Machine.execVaAbs m u s
  | .vaNeg m u => Sys2Proof.Machine.execVaNeg m u s
  | .vaCeq m u => Sys2Proof.Machine.execVaCeq m u s
  | .vaClt m u => Sys2Proof.Machine.execVaClt m u s
  | .vaCle m u => Sys2Proof.Machine.execVaCle m u s
  | .vaCun m u => Sys2Proof.Machine.execVaCun m u s
  | .vaSel m u => Sys2Proof.Machine.execVaSel m u s
  | .vaCvt m u => Sys2Proof.Machine.execVaCvt m u s
  | .vaAnd m u => Sys2Proof.Machine.execVaAnd m u s
  | .vaOr m u => Sys2Proof.Machine.execVaOr m u s
  | .vaXor m u => Sys2Proof.Machine.execVaXor m u s
  | .vaShl m u => Sys2Proof.Machine.execVaShl m u s
  | .vaShr m u => Sys2Proof.Machine.execVaShr m u s
  | .vaSar m u => Sys2Proof.Machine.execVaSar m u s
  | .vaScl m u => Sys2Proof.Machine.execVaScl m u s
  | .vaClmp m u => Sys2Proof.Machine.execVaClmp m u s
  | .vaRnd m u => Sys2Proof.Machine.execVaRnd m u s
  | .vaQnt m u => Sys2Proof.Machine.execVaQnt m u s
  | .vaDqn m u => Sys2Proof.Machine.execVaDqn m u s
  | .vaMov m u => Sys2Proof.Machine.execVaMov m u s
  | .rsq m => Sys2Proof.Machine.execRsq m s
  | .rcp m => Sys2Proof.Machine.execRcp m s
  | .sqrt m => Sys2Proof.Machine.execSqrt m s
  | .exp2 m => Sys2Proof.Machine.execExp2 m s
  | .log2 m => Sys2Proof.Machine.execLog2 m s
  | .exp m => Sys2Proof.Machine.execExp m s
  | .tanh m => Sys2Proof.Machine.execTanh m s
  | .sigm m => Sys2Proof.Machine.execSigm m s
  | .silu m => Sys2Proof.Machine.execSilu m s
  | .rsum m => Sys2Proof.Machine.execRsum m s
  | .rmax m => Sys2Proof.Machine.execRmax m s
  | .rmin m => Sys2Proof.Machine.execRmin m s
  | .bcst m => Sys2Proof.Machine.execBcst m s
  | .perm m => Sys2Proof.Machine.execPerm m s
  | .gxch m => Sys2Proof.Machine.execGxch m s
  | .rot m => Sys2Proof.Machine.execRot m s
  | .scan m => Sys2Proof.Machine.execScan m s
  | .cmpr m => Sys2Proof.Machine.execCmpr m s
  | .expd m => Sys2Proof.Machine.execExpd m s
  | .popm m => Sys2Proof.Machine.execPopm m s
  | .ffs m => Sys2Proof.Machine.execFfs m s
  | .vtos m => Sys2Proof.Machine.execVtos m s
  | .stov m => Sys2Proof.Machine.execStov m s
  | .sadd m => Sys2Proof.Machine.execSadd m s
  | .saddc m => Sys2Proof.Machine.execSaddc m s
  | .srdn m => Sys2Proof.Machine.execSrdn m s
  | .shdr m => Sys2Proof.Machine.execShdr m s
  | .sclr m => Sys2Proof.Machine.execSclr m s
  | .sevt m => Sys2Proof.Machine.execSevt m s
  | .sldr m => Sys2Proof.Machine.execSldr m s
  | .sstt m => Sys2Proof.Machine.execSstt m s
  | .matrixNop => Sys2Proof.Machine.execMatrixNop s
  | .mcfg a => Sys2Proof.Machine.execMcfg a s
  | .mma t a b n => Sys2Proof.Machine.execMma t a b n s
  | .mmaz t a b n => Sys2Proof.Machine.execMmaz t a b n s
  | .mmar t a b n => Sys2Proof.Machine.execMmar t a b n s
  | .mmap t a d n => Sys2Proof.Machine.execMmap t a d n s
  | .accrd t a n => Sys2Proof.Machine.execAccrd t a n s
  | .accwr t a n => Sys2Proof.Machine.execAccwr t a n s
  | .acccl t => Sys2Proof.Machine.execAcccl t s
  | .pldef p a n => Sys2Proof.Machine.execPldef p a n s
  | .mmrk g => Sys2Proof.Machine.execMmrk g s
  | .matrixOpIssue core => Sys2Proof.Machine.execMatrixOpIssue core s
  | .matrixBeat core => Sys2Proof.Machine.execMatrixBeat core s
  | .remoteOperandArrival core => Sys2Proof.Machine.execRemoteOperandArrival core s
  | .mmrkFire core => Sys2Proof.Machine.execMmrkFire core s
  | .engineNop => Sys2Proof.Machine.execEngineNop s
  | .cpy c a imm => Sys2Proof.Machine.execCpy c a imm s
  | .cpn c a imm => Sys2Proof.Machine.execCpn c a imm s
  | .cpz c a imm => Sys2Proof.Machine.execCpz c a imm s
  | .cpc c a imm => Sys2Proof.Machine.execCpc c a imm s
  | .cpk c a imm => Sys2Proof.Machine.execCpk c a imm s
  | .cpe c a imm => Sys2Proof.Machine.execCpe c a imm s
  | .send c a imm => Sys2Proof.Machine.execSend c a imm s
  | .recv c a imm => Sys2Proof.Machine.execRecv c a imm s
  | .chw c a imm => Sys2Proof.Machine.execChw c a imm s
  | .chi c a imm => Sys2Proof.Machine.execChi c a imm s
  | .phr p a k m => Sys2Proof.Machine.execPhr p a k m s
  | .phd p a k => Sys2Proof.Machine.execPhd p a k s
  | .phs p a k => Sys2Proof.Machine.execPhs p a k s
  | .phb p a k => Sys2Proof.Machine.execPhb p a k s
  | .phw p a k => Sys2Proof.Machine.execPhw p a k s
  | .ple a imm => Sys2Proof.Machine.execPle a imm s
  | .plu a imm => Sys2Proof.Machine.execPlu a imm s
  | .ckpStart a => Sys2Proof.Machine.execCkpStart a s
  | .ckpStop a => Sys2Proof.Machine.execCkpStop a s
  | .ckpQuiesce a => Sys2Proof.Machine.execCkpQuiesce a s
  | .ckpStatus a => Sys2Proof.Machine.execCkpStatus a s
  | .engineOpIssue core => Sys2Proof.Machine.execEngineOpIssue core s
  | .channelOccupancyFall core => Sys2Proof.Machine.execChannelOccupancyFall core s
  | .cpeStart tid => Sys2Proof.Machine.execCpeStart tid s
  | .copyPiece tid => Sys2Proof.Machine.execCopyPiece tid s
  | .transferComplete tid => Sys2Proof.Machine.execTransferComplete tid s
  | .userInterruptTaken core ctx => Sys2Proof.Machine.execUserInterruptTaken core ctx s
  | .phaseComplete ph => Sys2Proof.Machine.execPhaseComplete ph s
  | .ringPlacement tid => Sys2Proof.Machine.execRingPlacement tid s
  | .recvTake tid => Sys2Proof.Machine.execRecvTake tid s
  | .encoderCommandStart clu => Sys2Proof.Machine.execEncoderCommandStart clu s
  | .encoderCommandDrop clu => Sys2Proof.Machine.execEncoderCommandDrop clu s
  | .promoteRequestArrival core => Sys2Proof.Machine.execPromoteRequestArrival core s
  | .drainComplete core => Sys2Proof.Machine.execDrainComplete core s
  | .promoteAckArrival core => Sys2Proof.Machine.execPromoteAckArrival core s
  | .promoteLost core => Sys2Proof.Machine.execPromoteLost core s
  | .saElementStepArrival k => Sys2Proof.Machine.execSaElementStepArrival k s
  | .space2StoreArrival k => Sys2Proof.Machine.execSpace2StoreArrival k s
  | .coreGroupEnd core => Sys2Proof.Machine.execCoreGroupEnd core s
  | .queueNotify die q size off val => Sys2Proof.Machine.execQueueNotify die q size off val s
  | .packetRead die q => Sys2Proof.Machine.execPacketRead die q s
  | .launchPlace l => Sys2Proof.Machine.execLaunchPlace l s
  | .launchComplete l => Sys2Proof.Machine.execLaunchComplete l s
  | .barrierPoll die q => Sys2Proof.Machine.execBarrierPoll die q s
  | .preemption l => Sys2Proof.Machine.execPreemption l s
  | .resumption l => Sys2Proof.Machine.execResumption l s
  | .quantumExpiry l => Sys2Proof.Machine.execQuantumExpiry l s
  | .energyBudgetExceeded l => Sys2Proof.Machine.execEnergyBudgetExceeded l s
  | .hostAccess r => Sys2Proof.Machine.execHostAccess r s
  | .xinvAll => Sys2Proof.Machine.execXinvAll s
  | .xinvOwner owner => Sys2Proof.Machine.execXinvOwner owner s
  | .xinvPage owner vpn => Sys2Proof.Machine.execXinvPage owner vpn s
  | .xinvComplete => Sys2Proof.Machine.execXinvComplete s
  | .ckpPage => Sys2Proof.Machine.execCkpPage s
  | .ckpPassEnd => Sys2Proof.Machine.execCkpPassEnd s
  | .paircfgWrite core val => Sys2Proof.Machine.execPaircfgWrite core val s
  | .cmapWrite clu hi val => Sys2Proof.Machine.execCmapWrite clu hi val s
  | .testHold clu val => Sys2Proof.Machine.execTestHold clu val s
  | .testStart clu val => Sys2Proof.Machine.execTestStart clu val s
  | .testAbort clu val => Sys2Proof.Machine.execTestAbort clu val s
  | .testRelease clu val => Sys2Proof.Machine.execTestRelease clu val s
  | .testDrainComplete clu => Sys2Proof.Machine.execTestDrainComplete clu s
  | .testPatternComplete clu => Sys2Proof.Machine.execTestPatternComplete clu s
  | .configImageRewrite clu => Sys2Proof.Machine.execConfigImageRewrite clu s
  | .eccCorrect die => Sys2Proof.Machine.execEccCorrect die s
  | .poisonMark p => Sys2Proof.Machine.execPoisonMark p s
  | .scrubRow die granules => Sys2Proof.Machine.execScrubRow die granules s
  | .heartbeatSend die => Sys2Proof.Machine.execHeartbeatSend die s
  | .heartbeatCheck die => Sys2Proof.Machine.execHeartbeatCheck die s
  | .lostDieAccessTimeout core => Sys2Proof.Machine.execLostDieAccessTimeout core s
  | .supplySag die isl => Sys2Proof.Machine.execSupplySag die isl s
  | .overCurrent die isl => Sys2Proof.Machine.execOverCurrent die isl s
  | .overCurrentKill die => Sys2Proof.Machine.execOverCurrentKill die s
  | .softTrip die isl => Sys2Proof.Machine.execSoftTrip die isl s
  | .ceilStepDown die isl => Sys2Proof.Machine.execCeilStepDown die isl s
  | .ceilStepUp die isl => Sys2Proof.Machine.execCeilStepUp die isl s
  | .hardTrip site => Sys2Proof.Machine.execHardTrip site s
  | .powerOffTrip => Sys2Proof.Machine.execPowerOffTrip s
  | .suspend domain => Sys2Proof.Machine.execSuspend domain s
  | .suspendComplete => Sys2Proof.Machine.execSuspendComplete s
  | .resume domain => Sys2Proof.Machine.execResume domain s
  | .resumeComplete => Sys2Proof.Machine.execResumeComplete s
  | .deviceBoot => Sys2Proof.Machine.execDeviceBoot s
  | .functionReady die k => Sys2Proof.Machine.execFunctionReady die k s
  | .pairReset pair => Sys2Proof.Machine.execPairReset pair s
  | .orbitMessageArrival m => Sys2Proof.Machine.execOrbitMessageArrival m s
  | .suspendedDeviceAccessTimeout core => Sys2Proof.Machine.execSuspendedDeviceAccessTimeout core s
  | .dieStopsAnswering die => Sys2Proof.Machine.execDieStopsAnswering die s
  | .sagEpisodeEnd die isl => Sys2Proof.Machine.execSagEpisodeEnd die isl s
  | .overCurrentClears die isl => Sys2Proof.Machine.execOverCurrentClears die isl s
  | .softTripRecovery die isl => Sys2Proof.Machine.execSoftTripRecovery die isl s
  | .ceilWrite core val => Sys2Proof.Machine.execCeilWrite core val s

end Sys2Proof.Machine
end

