-- ==== Sys2Proof/Machine/Sched.lean ====
section
/-! DEFINITION. Which transition a step takes: the head of the agenda, or else the model's own schedule; the fetch of the next
bundle; the passage of time; and a word laid where the next step fetches it. -/

namespace Sys2Proof.Machine

/-! ### The next bundle of a core (R31, R35) -/

/-- The running context of a core takes its next bundle: the bundle at its program counter is fetched, decoded and executed. A
core that may not take one now, takes a trap or freezes instead. -/
def stepBundle (core : Nat) (s : State) : Res :=
  match { s with focus := core }.takeNext core with
  | (t, some (_, b)) => exec (instrOfBundle b) t
  | (t, none) => .next t

/-- A line leaves a core's L1, written back if dirty (R271). Streaming lines go first and sticky lines last (R222): a line whose hint
keeps it longer than another's stays. -/
def State.evict (s : State) (core line : Nat) : State :=
  let k := s.core core
  match k.l1Line? line with
  | none => s
  | some l => if k.l1.any (fun e => decide (hintRank e.2.hint < hintRank l.hint)) then s else s.invalidateLine core line

/-! ### Time -/

/-- The supply islands of the device. -/
def allIslands : List (Nat × Nat) := [0, 1, 2, 3].flatMap (fun d => [0, 1, 2, 3].map (fun i => (d, i)))

/-- The queues whose packet is a barrier (R365). -/
def State.barriers (s : State) : List (Nat × Nat) :=
  s.dies.flatMap (fun d => (d.2.qstate.filter (fun q => q.2.barrier.isSome)).map (fun q => (d.1, q.1)))

/-- An item for every end of a period of n µs between times a and b. -/
def perPeriod (n a b : Nat) (l : List Agenda) : List Agenda := (List.replicate (b / n - a / n) l).flatten

/-- What comes about by the clock between times a and b, in µs (R365, R422, R426, R427, R429).
(DESIGN CHOICE, log entry 47.) -/
def State.periodic (s : State) (a b : Nat) : List Agenda :=
  perPeriod 10 a b ([0, 1, 2, 3].map Agenda.beat ++ [0, 1, 2, 3].map Agenda.check ++ s.barriers.map (fun q => Agenda.poll q.1 q.2)
    ++ (if s.ckp.active then [Agenda.page] else []))
  ++ allIslands.flatMap (fun e =>
    let x := (s.die e.1).island e.2
    (if x.oc then List.replicate ((b - x.ocAt) / 100) (Agenda.powerKill e.1) else [])
      ++ (if x.hot then List.replicate ((b - x.turnAt) / 1000) (Agenda.ceilDown e.1 e.2) else [])
      ++ (if x.recovering then List.replicate ((b - x.turnAt) / 10000) (Agenda.ceilUp e.1 e.2) else []))
  ++ (if s.hardTrip && !s.powerOff && decide (s.hardAt + 200000 ≤ b) then [Agenda.instr .powerOffTrip] else [])

/-- Time passes. What is due by the new time enters the agenda. -/
def State.passTime (s : State) (us : Nat) : State :=
  { s with time := s.time + us, agenda := s.agenda ++ s.periodic s.time (s.time + us) }

/-! ### The model's own schedule -/

/-- The meaning of one transition. -/
abbrev Meaning := State → Res

/-- Transitions that one core may be ready for. -/
def coreCandidates (s : State) (c : Nat) (k : Core) : List Meaning :=
  (match k.frozen with
    | some .data => [execMemoryDataArrival c, execLostDieAccessTimeout c, execSuspendedDeviceAccessTimeout c]
    | some .fetch => [execBundleFetchFill c]
    | some .grant => [execGrantPeriodStart (s.pairOf c)]
    | some .xinv => [execXinvComplete]
    | _ => [])
  ++ (if k.stalled then [execStallEnd c] else [])
  ++ (if k.run.isNone then k.ctxIds.map (fun x => execContextResume c x) else [])
  ++ (if k.drain.isSome then [execDrainComplete c] else [])
  ++ (if k.preqs.isEmpty then [] else [execPromoteRequestArrival c])
  ++ (if k.promos.isEmpty then [] else [execPromoteAckArrival c, execPromoteLost c])
  ++ (match k.mrun with
    | some r => if r.waits then [execRemoteOperandArrival c, execMatrixBeat c] else [execMatrixBeat c]
    | none => [])
  ++ (if k.mq.isEmpty then [] else [execMatrixOpIssue c])
  ++ (if k.marks.isEmpty && k.mq.isEmpty then [] else [execMmrkFire c])
  ++ (if k.eq.isEmpty then [] else [execChannelOccupancyFall c, execEngineOpIssue c])
  ++ (if k.launch.isSome then [execCoreGroupEnd c] else [])

/-- Transitions of one transfer. -/
def xferCandidates (t : Nat) : List Meaning := [execCpeStart t, execCopyPiece t, execRingPlacement t, execRecvTake t, execTransferComplete t]

/-- Transitions of one launch. -/
def launchCandidates (n : Nat) : List Meaning :=
  [execLaunchComplete n, execEnergyBudgetExceeded n, execQuantumExpiry n, execResumption n, execLaunchPlace n, execPreemption n]

/-- Functions of the dies that answer and have not reported ready (R438). -/
def State.readyCandidates (s : State) : List Meaning :=
  [0, 1, 2, 3].flatMap (fun d =>
    if s.dieDown d || (s.die d).ready == BitVec.allOnes 39 then []
    else ((List.range 39).filter (fun k => !(bitOf (s.die d).ready.toNat k))).map (fun k => execFunctionReady d k))

/-- Queues that a descriptor names. -/
def State.queueCandidates (s : State) : List Meaning :=
  s.dies.flatMap (fun d => (d.2.qdesc.filter (fun e => e.1 % 8 == 2)).map (fun e => execPacketRead d.1 (e.1 / 8)))

/-- Pairs that move between operating points (R59). -/
def State.movingPairs (s : State) : List Nat := (s.pairs.filter (fun p => p.2.moving.isSome)).map (·.1)

/-- Every transition that may be ready, but for bundles and the streamer. -/
def State.candidates (s : State) : List Meaning :=
  (if s.booted then [] else [execDeviceBoot]) ++ s.readyCandidates
  ++ s.barriers.map (fun q => execBarrierPoll q.1 q.2)
  ++ s.movingPairs.map execOpMoveComplete
  ++ s.cores.flatMap (fun c => coreCandidates s c.1 c.2)
  ++ s.xfers.flatMap (fun x => xferCandidates x.1)
  ++ s.clusters.flatMap (fun c =>
      (if c.2.enc.isEmpty && c.2.encOut.isEmpty then [] else [execEncoderCommandDrop c.1, execEncoderCommandStart c.1])
      ++ (if c.2.tstate == .idle then [] else [execTestDrainComplete c.1, execTestPatternComplete c.1])
      ++ (if c.2.repair then [execConfigImageRewrite c.1] else []))
  ++ (if s.s2.isEmpty then [] else [execSpace2StoreArrival 0]) ++ (if s.saSteps.isEmpty then [] else [execSaElementStepArrival 0])
  ++ (if s.xinvs.isEmpty then [] else [execXinvComplete])
  ++ s.launches.flatMap (fun l => if l.2.phase == .done then [] else launchCandidates l.1)
  ++ s.queueCandidates
  ++ (if s.susp == .suspending then [execSuspendComplete] else if s.susp == .resuming then [execResumeComplete] else [])

/-- The first transition of a list that changes the state. -/
def firstChange (s : State) : List Meaning → Option State
  | [] => none
  | i :: t =>
    match i s with
    | .next s' => if s' = s then firstChange s t else some s'
    | _ => firstChange s t

/-- The core may take a bundle. -/
def Core.runnable (k : Core) : Bool := k.run.isSome && k.frozen.isNone && !k.stalled && !k.arrayBehind

/-- The next core after the one in focus that may take a bundle. -/
def State.nextCore (s : State) : Option Nat :=
  let ks := (s.cores.filter (fun c => c.2.runnable)).map (·.1)
  match ks.find? (fun k => decide (s.focus < k)) with
  | some k => some k
  | none => ks.head?

/-- What comes with the cycle in which a core issues: a microsecond every 1,024 cycles, and the pair's grant period every 256
cycles of the core that has issued for longer (R54). -/
def State.cycleEnds (s : State) (core : Nat) : List Agenda :=
  let n := (s.core core).now
  let p := s.pairOf core
  (if n % 1024 = 1023 then [.tick 1] else [])
    ++ (if n % 256 = 255 ∧ (s.pair p).grantEn ∧ n = s.pairNow p then [.instr (.grantPeriodStart p)] else [])

/-- The schedule when the agenda is empty: work that is ready, else a bundle of the next core (time passing with its cycles), else
a checkpoint page, else time passes. (DEDUCED, log entry 66.) -/
def defaultStep (s : State) : Res :=
  match firstChange s s.candidates with
  | some s' => .next s'
  | none =>
    match s.nextCore with
    | some k => stepBundle k { s with agenda := s.cycleEnds k }
    | none => .next (s.passTime (10 - s.time % 10))

/-- One item of the agenda. -/
def runItem (a : Agenda) (s : State) : Res :=
  match a with
  | .instr i => exec i s
  | .focus core => stepBundle core s
  | .evict core line => .next (s.evict core line)
  | .tick us => .next (s.passTime us)
  | .replay core => .next { s with replays := core :: s.replays }
  | .diverge core => .next { s with diverges := core :: s.diverges }
  | .fetchMiss core => .next { s with fetchMisses := core :: s.fetchMisses }
  | .beat die => execHeartbeatSend die s
  | .check die => execHeartbeatCheck die s
  | .poll die q => execBarrierPoll die q s
  | .page => .next (s.ckpPageStep).ckpPassStep
  | .powerKill die => execOverCurrentKill die s
  | .ceilDown die isl => execCeilStepDown die isl s
  | .ceilUp die isl => execCeilStepUp die isl s
  | .l2Evict line => .next (s.l2Evict line)
  | .coolSoft die isl => .next (s.coolSoft die isl)
  | .coolHard die isl => .next (s.coolHard die isl)
  | .load x => .next { s with sections := x :: s.sections }
  | .flash slot i => .next { s with flash := Sp.put s.flash (slot % 2) i }
  | .msixCap on mask => .next (s.msixCap on mask)
  | .bar2 size => .next (if [2 ^ 36, 2 ^ 37, 2 ^ 38, 2 ^ 39].contains size then { s with bar2 := size } else s)
  | .orbit port seq m => .next (s.orbitTake (port % 16) seq m)

/-- One transition of the machine. (DESIGN CHOICE, log entry 1.) -/
def stepOnce (s : State) : Res :=
  match s.agenda with
  | [] => defaultStep s
  | a :: t => runItem a { s with agenda := t }

/-! ### A word where the next step fetches it -/

/-- The physical address at which the core in focus fetches its next bundle, if it can. -/
def State.fetchPlace (s : State) : Option Nat :=
  let k := s.core s.focus
  match k.run with
  | none => none
  | some x =>
    if !k.runnable || (k.ctx x).asyncDue || s.fetchMisses.contains s.focus then none
    else match s.fetch s.focus x with
    | (_, .bundle _) =>
      match s.translate (s.ctxAgent s.focus x) accFetch (k.ctx x).pc.toNat with
      | .ok r => some r.2.pa
      | .error _ => none
    | _ => none

/-- The code address and the tables of the launch that `loaded` places: virtual 0 to 1 GiB to physical 0 to 1 GiB. -/
def loadPc : Nat := 0x10000
def loadTables : Cells := dwCells 0x1000 8 0x801 ++ dwCells 0x2000 8 0xC01 ++ dwCells 0x3000 8 0x7F

/-- A launch of one context on core 0, as the launch processor would have placed it from a queue of OWNER 1. -/
def loadLaunch : Launch :=
  { packet := [1, 0x10000, 0, 0x810909, 0, 0, 0, 0], owner := 1, root := 0x1000, phase := .running
    groups := [{ core := 0, logical := 0, clu := 0 }] }

def loadCtx : Ctx := { phase := .ready, pc := 0x10000 }
def loadCore : Core := { ctxs := [(0, loadCtx)], run := some 0, launch := some 0, prevOwner := some 1 }

/-- The machine with a program's first bundle about to be fetched by context 0 of core 0: booted, die 0 ready, the launch placed. CEIL of its
pairs is OP3 still, as at reset (log entry 107). (DESIGN CHOICE, log entry 16.) -/
def State.loaded (s : State) : State :=
  { s.homeWrite loadTables with
    booted := true, focus := 0, cores := [(0, loadCore)], launches := [(0, loadLaunch)], nextLaunch := 1
    dies := [(0, { ready := BitVec.allOnes 39 })] }

/-- A bundle laid where the next step fetches it. -/
def State.withBundle (s : State) (b : Bundle) : State :=
  let put (s : State) (pa : Nat) : State :=
    let cs := cellsAt pa (bytesOf 32 b.toNat)
    { s.homeStore cs with agenda := .focus s.focus :: s.agenda }
  match s.fetchPlace with
  | some pa => put s pa
  | none => put s.loaded loadPc

end Sys2Proof.Machine
end

