-- ==== Sys2Proof/Machine/Step.lean ====
section
/-! DEFINITION. One step of the machine, and the state in which its next step runs a given instruction. -/

namespace Sys2Proof.Machine

/-- One step: the transition that the agenda names, or else the one the model's schedule picks. -/
def step (s : State) : Host.Outcome State Fault Refusal := stepOnce s

/-- The state s with the instruction of a table word laid where its next step fetches. -/
def State.withFetchWord (s : State) (_nbits w : Nat) : State := s.withBundle (tableBundle w)

end Sys2Proof.Machine
end

