-- ==== Sys2Proof/WellFormed.lean ====
section
/-! DEFINITION. Well-formed instructions: terms that stand for a legal encoding of their row, or that name an agent the device
has. -/

namespace Sys2Proof

/-! ### Checks -/

/-- The source of a move is legal in a bundle without a pool (R99, R101). -/
def srcOk (src : BitVec 10) : Bool := !(srcIllegal 0 src.toNat)
def MoveHead.ok (m : MoveHead) : Bool := srcOk m.src
def PlainHead.ok (m : PlainHead) : Bool := srcOk m.src

/-- A register move names a register (R102, R106), and its word is not that of an empty slot. -/
def regMoveOk (m : PlainHead) (d : BitVec 8) : Bool := m.ok && isReg d.toNat && decide (encodePlain m d.toNat ≠ 0)
/-- A port move names one of the twelve units (R102). -/
def portMoveOk (m : PlainHead) (u : BitVec 4) : Bool := m.ok && decide (u.toNat < 12)
/-- A tile copy has at least its 16 beats (R207, R208). -/
def tileBeatsOk (n : BitVec 8) : Bool := decide (15 ≤ n.toNat)
/-- A short immediate, of at most 255 where the operation asks for it (R115, R116). -/
def immOk (i : BitVec 10) : Bool := decide (i.toNat ≤ 255)
def immWideOk (i : BitVec 10) : Bool := decide (i.toNat < 768)
/-- A die phaser is named by its register alone (R256). -/
def phaserOk (p : BitVec 5) (k : BitVec 1) : Bool := k == 0 || p == 0
/-- A registration has a mode (R256). -/
def modeOk (m : BitVec 2) : Bool := m != 0

/-- The numbers of agents (R1, R2, R29, R153): physical cores, contexts, pairs, clusters, dies, queues, supply islands. -/
def coreOk (c : Nat) : Bool := decide (c < 1088)
def ctxOk (x : Nat) : Bool := decide (x < 4)
def pairOk (p : Nat) : Bool := decide (p < 512)
def cluOk (c : Nat) : Bool := decide (c < 64)
def dieOk (d : Nat) : Bool := decide (d < 4)
def queueOk (q : Nat) : Bool := decide (q < 256)
def islandOk (i : Nat) : Bool := decide (i < 4)
/-- A loop level, or 3 for the modulo loop. -/
def levelOk (l : Nat) : Bool := decide (l < 4)
/-- A phaser key: the 32 of each cluster, then the 256 of each die. -/
def phaserKeyOk (p : Nat) : Bool := decide (p < 2048) || (decide (4096 ≤ p) && decide (p < 5120))
/-- A write of 1 to 8 bytes that stays in its dword (R361). -/
def notifyOk (size off : Nat) : Bool := decide (1 ≤ size) && decide (size + off ≤ 8)
/-- A bit of READY (R439). -/
def readyOk (k : Nat) : Bool := decide (k < 39)
/-- A request of at most 8 bytes inside its aligned dword (R388, R389). -/
def pieceOk (a n : Nat) : Bool := decide (1 ≤ n) && decide (a % 8 + n ≤ 8)
def HostReq.ok : HostReq → Bool
  | .barRead off _ => decide (off < 268435456)
  | .barWrite off _ _ => decide (off < 268435456)
  | .bar2Read off n => pieceOk off n && decide (off < 2 ^ 39)
  | .bar2Write off n _ => pieceOk off n && decide (off < 2 ^ 39)
  | .bar4Read off n => pieceOk off n && decide (off < 65536)
  | .bar4Write off n _ => pieceOk off n && decide (off < 65536)
  | .memRead pa n => pieceOk pa n && decide (pa < 2 ^ 52)
  | .memWrite pa n _ => pieceOk pa n && decide (pa < 2 ^ 52)
def PoisonPlace.ok : PoisonPlace → Bool
  | .mem g => decide (g < 2 ^ 47)
  | .l2 g => decide (g < 2 ^ 47)
  | .l1 c g => coreOk c && decide (g < 2 ^ 47)
  | .scratch c g => coreOk c && decide (g < 32768)
  | .segment c r => coreOk c && decide (r < 256)
  | .tileRow c t i => coreOk c && decide (t < 8) && decide (i < 16)
def OrbitMsg.ok : OrbitMsg → Bool
  | .load pa n => pieceOk pa n
  | .store pa n _ => pieceOk pa n
  | .fetchAdd pa n _ => (n == 4 || n == 8) && decide (pa % n = 0)
  | .swap pa n _ => (n == 4 || n == 8) && decide (pa % n = 0)
  | .cas pa n _ _ => (n == 4 || n == 8) && decide (pa % n = 0)
  | .notify d q _ => dieOk d && queueOk q
  | .share t d _ die q o p => decide (t < 64) && decide (d < 64) && dieOk die && queueOk q && decide (o.root < 2 ^ 52)
      && decide (o.devmask < 2 ^ 64) && decide (o.cls < 4) && p.length == 8
  | .shareDone t _ d _ => decide (t < 64) && decide (d < 64)
  | .shareKill t d _ _ => decide (t < 64) && decide (d < 64)
  | .energy t _ d _ => decide (t < 64) && decide (d < 64)
  | .shareClass t d _ c => decide (t < 64) && decide (d < 64) && decide (c < 4)
  | .suspend => true
  | .resume => true
  | .data _ _ _ => true
  | .peer d _ => decide (d < 64)
/-- The bundle is the row BUNDLE_ISSUE's own: no other row stands for its 32 bytes. -/
def bundleOk (b : Bundle) : Bool := decide (instrOfBundle b = .bundleIssue b)

/-- A well-formed instruction. -/
def Instr.wf (i : Instr) : Bool :=
  match i with
  | .bundleIssue b => bundleOk b
  | .grantPeriodStart pair => pairOk pair
  | .opMoveComplete pair => pairOk pair
  | .loopCountExpire core ctx lvl => coreOk core && ctxOk ctx && levelOk lvl
  | .contextSwitchOut core => coreOk core
  | .contextResume core ctx => coreOk core && ctxOk ctx
  | .stallInPlace core => coreOk core
  | .stallEnd core => coreOk core
  | .resultWrite core ctx => coreOk core && ctxOk ctx
  | .memoryDataArrival core => coreOk core
  | .bundleFetchFill core => coreOk core
  | .registerMove m d => regMoveOk m d
  | .portAWrite m u => portMoveOk m u
  | .portBWrite m u => portMoveOk m u
  | .portDOverride m u => portMoveOk m u
  | .portCfgWrite m u => portMoveOk m u
  | .sxAdd m _ => m.ok
  | .sxSub m _ => m.ok
  | .sxAnd m _ => m.ok
  | .sxOr m _ => m.ok
  | .sxXor m _ => m.ok
  | .sxShl m _ => m.ok
  | .sxShr m _ => m.ok
  | .sxSar m _ => m.ok
  | .sxMin m _ => m.ok
  | .sxMax m _ => m.ok
  | .sxMinu m _ => m.ok
  | .sxMaxu m _ => m.ok
  | .sxCeq m _ => m.ok
  | .sxCne m _ => m.ok
  | .sxClt m _ => m.ok
  | .sxCltu m _ => m.ok
  | .sxCle m _ => m.ok
  | .sxCleu m _ => m.ok
  | .sxSel m _ => m.ok
  | .sxClz m _ => m.ok
  | .sxPopc m _ => m.ok
  | .sxSext m _ => m.ok
  | .sxAdds m _ => m.ok
  | .sxBfx m _ => m.ok
  | .sxBfi m _ => m.ok
  | .sxPass m _ => m.ok
  | .sxPack m _ => m.ok
  | .smMul m => m.ok
  | .smMulh m => m.ok
  | .smMulhu m => m.ok
  | .smMadd m => m.ok
  | .smDiv m => m.ok
  | .smDivu m => m.ok
  | .smRem m => m.ok
  | .smRemu m => m.ok
  | .jmp m => m.ok
  | .br m => m.ok
  | .bnz m => m.ok
  | .bz m => m.ok
  | .call m => m.ok
  | .ret m => m.ok
  | .loop m => m.ok
  | .mloop m => m.ok
  | .lbrk m => m.ok
  | .rept m => m.ok
  | .trap m => m.ok
  | .eret m => m.ok
  | .wait m => m.ok
  | .warm m => m.ok
  | .sysr m => m.ok
  | .sysw m => m.ok
  | .halt m => m.ok
  | .ldb m => m.ok
  | .ldbu m => m.ok
  | .ldh m => m.ok
  | .ldhu m => m.ok
  | .ldw m => m.ok
  | .ldwu m => m.ok
  | .ldd m => m.ok
  | .stb m => m.ok
  | .sth m => m.ok
  | .stw m => m.ok
  | .std m => m.ok
  | .fence m => m.ok
  | .pref m => m.ok
  | .wbl m => m.ok
  | .invl m => m.ok
  | .vld m => m.ok
  | .vst m => m.ok
  | .vlds m => m.ok
  | .vsts m => m.ok
  | .vgth m => m.ok
  | .vsct m => m.ok
  | .vldb m => m.ok
  | .vldm m => m.ok
  | .vstm m => m.ok
  | .vpref m => m.ok
  | .aadd m => m.ok
  | .aincb m => m.ok
  | .acas m => m.ok
  | .aswp m => m.ok
  | .aand m => m.ok
  | .aor m => m.ok
  | .axor m => m.ok
  | .amin m => m.ok
  | .amax m => m.ok
  | .aminu m => m.ok
  | .amaxu m => m.ok
  | .afadd m => m.ok
  | .afmin m => m.ok
  | .afmax m => m.ok
  | .apcas m => m.ok
  | .apld m => m.ok
  | .vaAdd m _ => m.ok
  | .vaSub m _ => m.ok
  | .vaMul m _ => m.ok
  | .vaFma m _ => m.ok
  | .vaFms m _ => m.ok
  | .vaMin m _ => m.ok
  | .vaMax m _ => m.ok
  | .vaAbs m _ => m.ok
  | .vaNeg m _ => m.ok
  | .vaCeq m _ => m.ok
  | .vaClt m _ => m.ok
  | .vaCle m _ => m.ok
  | .vaCun m _ => m.ok
  | .vaSel m _ => m.ok
  | .vaCvt m _ => m.ok
  | .vaAnd m _ => m.ok
  | .vaOr m _ => m.ok
  | .vaXor m _ => m.ok
  | .vaShl m _ => m.ok
  | .vaShr m _ => m.ok
  | .vaSar m _ => m.ok
  | .vaScl m _ => m.ok
  | .vaClmp m _ => m.ok
  | .vaRnd m _ => m.ok
  | .vaQnt m _ => m.ok
  | .vaDqn m _ => m.ok
  | .vaMov m _ => m.ok
  | .rsq m => m.ok
  | .rcp m => m.ok
  | .sqrt m => m.ok
  | .exp2 m => m.ok
  | .log2 m => m.ok
  | .exp m => m.ok
  | .tanh m => m.ok
  | .sigm m => m.ok
  | .silu m => m.ok
  | .rsum m => m.ok
  | .rmax m => m.ok
  | .rmin m => m.ok
  | .bcst m => m.ok
  | .perm m => m.ok
  | .gxch m => m.ok
  | .rot m => m.ok
  | .scan m => m.ok
  | .cmpr m => m.ok
  | .expd m => m.ok
  | .popm m => m.ok
  | .ffs m => m.ok
  | .vtos m => m.ok
  | .stov m => m.ok
  | .sadd m => m.ok
  | .saddc m => m.ok
  | .srdn m => m.ok
  | .shdr m => m.ok
  | .sclr m => m.ok
  | .sevt m => m.ok
  | .sldr m => m.ok
  | .sstt m => m.ok
  | .matrixNop => true
  | .mcfg _ => true
  | .mma _ _ _ _ => true
  | .mmaz _ _ _ _ => true
  | .mmar _ _ _ _ => true
  | .mmap _ _ _ _ => true
  | .accrd _ _ n => tileBeatsOk n
  | .accwr _ _ n => tileBeatsOk n
  | .acccl _ => true
  | .pldef _ _ _ => true
  | .mmrk _ => true
  | .matrixOpIssue core => coreOk core
  | .matrixBeat core => coreOk core
  | .remoteOperandArrival core => coreOk core
  | .mmrkFire core => coreOk core
  | .engineNop => true
  | .cpy _ _ i => immOk i
  | .cpn _ _ i => immOk i
  | .cpz _ _ i => immOk i
  | .cpc _ _ i => immOk i
  | .cpk _ _ i => immOk i
  | .cpe _ _ i => immOk i
  | .send _ _ i => immOk i
  | .recv _ _ i => immOk i
  | .chw _ _ i => immWideOk i
  | .chi _ _ i => immWideOk i
  | .phr p _ k m => phaserOk p k && modeOk m
  | .phd p _ k => phaserOk p k
  | .phs p _ k => phaserOk p k
  | .phb p _ k => phaserOk p k
  | .phw p _ k => phaserOk p k
  | .ple _ i => immOk i
  | .plu _ i => immOk i
  | .ckpStart _ => true
  | .ckpStop _ => true
  | .ckpQuiesce _ => true
  | .ckpStatus _ => true
  | .engineOpIssue core => coreOk core
  | .channelOccupancyFall core => coreOk core
  | .cpeStart _ => true
  | .copyPiece _ => true
  | .transferComplete _ => true
  | .userInterruptTaken core ctx => coreOk core && ctxOk ctx
  | .phaseComplete ph => phaserKeyOk ph
  | .ringPlacement _ => true
  | .recvTake _ => true
  | .encoderCommandStart clu => cluOk clu
  | .encoderCommandDrop clu => cluOk clu
  | .promoteRequestArrival core => coreOk core
  | .drainComplete core => coreOk core
  | .promoteAckArrival core => coreOk core
  | .promoteLost core => coreOk core
  | .saElementStepArrival _ => true
  | .space2StoreArrival _ => true
  | .coreGroupEnd core => coreOk core
  | .queueNotify die q size off _ => dieOk die && queueOk q && notifyOk size off
  | .packetRead die q => dieOk die && queueOk q
  | .launchPlace _ => true
  | .launchComplete _ => true
  | .barrierPoll die q => dieOk die && queueOk q
  | .preemption _ => true
  | .resumption _ => true
  | .quantumExpiry _ => true
  | .energyBudgetExceeded _ => true
  | .hostAccess r => r.ok
  | .xinvAll => true
  | .xinvOwner _ => true
  | .xinvPage _ vpn => decide (vpn < 2 ^ 52)
  | .xinvComplete => true
  | .ckpPage => true
  | .ckpPassEnd => true
  | .paircfgWrite core _ => coreOk core
  | .cmapWrite clu _ _ => cluOk clu
  | .testHold clu _ => cluOk clu
  | .testStart clu _ => cluOk clu
  | .testAbort clu _ => cluOk clu
  | .testRelease clu _ => cluOk clu
  | .testDrainComplete clu => cluOk clu
  | .testPatternComplete clu => cluOk clu
  | .configImageRewrite clu => cluOk clu
  | .eccCorrect die => dieOk die
  | .poisonMark p => p.ok
  | .scrubRow die _ => dieOk die
  | .heartbeatSend die => dieOk die
  | .heartbeatCheck die => dieOk die
  | .lostDieAccessTimeout core => coreOk core
  | .supplySag die isl => dieOk die && islandOk isl
  | .overCurrent die isl => dieOk die && islandOk isl
  | .overCurrentKill die => dieOk die
  | .softTrip die isl => dieOk die && islandOk isl
  | .ceilStepDown die isl => dieOk die && islandOk isl
  | .ceilStepUp die isl => dieOk die && islandOk isl
  | .hardTrip site => site.all (fun e => dieOk e.1 && islandOk e.2)
  | .powerOffTrip => true
  | .suspend _ => true
  | .suspendComplete => true
  | .resume _ => true
  | .resumeComplete => true
  | .deviceBoot => true
  | .functionReady die k => dieOk die && readyOk k
  | .pairReset pair => pairOk pair
  | .orbitMessageArrival m => m.ok
  | .suspendedDeviceAccessTimeout core => coreOk core
  | .dieStopsAnswering die => dieOk die
  | .sagEpisodeEnd die isl => dieOk die && islandOk isl
  | .overCurrentClears die isl => dieOk die && islandOk isl
  | .softTripRecovery die isl => dieOk die && islandOk isl
  | .ceilWrite core _ => coreOk core

end Sys2Proof
end

