-- ==== Sys2Proof/Safety.lean ====
section
/-! DEFINITION. What counts as a safe run, and the terms in which the statements speak of the issue of a bundle: when a context
may issue one, what its moves read, and the state after a bundle that holds one word. -/

namespace Sys2Proof

open Machine

/-- A step goes on. -/
def goesOn (o : Res) : Bool :=
  match o with
  | .next _ => true
  | .fault _ => false
  | .refused _ => false

/-- A core's scratchpad is canonical, and the one that its upper twin holds of its own. -/
def Machine.Core.scratchOk (k : Core) : Bool := Memory.wf k.scratch && k.twin.all (fun t => Memory.wf t.scratch)

/-- Memory of the device, the scratchpad of every core, and those of the saved images of pre-empted launches are canonical; the L2 lists
its lines in rising order. -/
def Machine.State.memOk (s : State) : Bool :=
  Memory.wf s.mem && s.cores.all (fun c => c.2.scratchOk)
    && s.launches.all (fun l => l.2.saved.all (fun c => c.2.scratchOk)) && Sp.sortedFrom 0 s.l2

/-- n steps of a run, each of which goes on and leaves the stores canonical. -/
def safeRun : Nat → State → Bool
  | 0, s => s.memOk
  | n + 1, s =>
    s.memOk && (match step s with
      | .next t => safeRun n t
      | _ => false)

/-! ### When a context may issue a bundle -/

/-- Context x runs on the core in focus and may issue a bundle at once: the core is not frozen and does not stall, no array work and no queue stands in
the way, no asynchronous trap is due, the results due have arrived, the context is in no modulo loop and in no second part of a
bundle, and the bundle is not one that a replay, its own or its upper twin's, or a divergence of the twins strikes. -/
def Machine.State.free (s : State) (core x : Nat) : Bool :=
  let k := s.core core
  let c := k.ctx x
  decide (s.focus = core) && decide (k.run = some x) && k.frozen.isNone && !k.stalled && !k.arrayBehind
    && decide (k.mq.length < 16) && decide (k.eq.length < 16)
    && !c.asyncDue && !c.lateData && !c.dueLost && !c.part2 && !c.loops.ml.active
    && !(s.replays.contains core) && !((s.upperOf core).any s.replays.contains) && !(s.diverges.contains core)

/-- The state in which a bundle's moves read (R31 steps 1 and 2): loops that have run out are over, and the results due are
written. -/
def Machine.State.atIssue (s : State) (core x : Nat) : State := (s.settleLoops core x).modCore core (fun k => k.deliver x)

/-- A move of a one-word bundle takes place: its guard holds, and neither the guard nor the source is marked (R100, R410). -/
def Machine.State.takes (s : State) (core x grd inv src : Nat) : Bool :=
  let c := (s.atIssue core x).ctx core x
  decide (((c.bank.greg grd).toNat + inv) % 2 = 1) && (decide (grd = 0) || (c.bank.mark (0xA0 + grd)).isNone)
    && ((s.atIssue core x).readSrc core x 0 0 src).mark.isNone && (c.bank.mark 0).isNone

/-- The same for a trigger, whose source field must be legal. -/
def Machine.State.mayTrigger (s : State) (core x : Nat) (m : MoveHead) : Bool :=
  m.ok && s.free core x && s.takes core x m.grd.toNat m.inv.toNat m.src.toNat

/-- The trigger that a one-word bundle makes at port p of unit u: t from its source, the unit's ports, and the register of its result
(R104): the pending override of port d, else the register that supplied t when W is 0. -/
def Machine.State.trigger (s : State) (core x u p : Nat) (m : MoveHead) : Trig :=
  let r := s.atIssue core x
  let q := (r.ctx core x).unit u
  let src := r.readSrc core x 0 0 m.src.toNat
  { slot := 0, unit := u, port := p, t := src.val, a := q.a, b := q.b, cfg := q.cfg
    dest := match q.d with
      | some d => some d
      | none => if m.w = 0 then src.reg.map (BitVec.ofNat 8) else none }

/-- The checks of one trigger that are its own (R119 step 6, R146, R35, R46): its configuration and operands, its accesses, what would
freeze the core, room for a write of XINV (R406) and in the promotion log for a release (R279), for wait an empty wake queue, and that the
twins of a tidelocked group agree. They are made in the state in which the bundle's moves read. -/
def Machine.State.passes (s : State) (core x : Nat) (g : Trig) : Bool :=
  let r := s.atIssue core x
  (r.trigFault core x 0 g).isNone && (r.accessFault core x g).isNone && (r.trigFreeze core x g).isNone
    && !(r.xinvOver core x [g]) && !((r.ctx core x).logsNow g && decide (64 ≤ (r.core core).log.length))
    && !(g.unit == 3 && g.port == 16 && (r.ctx core x).tokens == 0) && !(r.twinsDiffer core x [g])

/-! ### The state after a bundle -/

/-- An empty slot 6 or 7 enters a queue that is not empty (R112, R114). -/
def Machine.Core.nops (k : Core) (x : Nat) : Core :=
  { k with
    mq := if k.mq.isEmpty then [] else k.mq ++ [{ ctx := x, op := 0, cyc := k.now }]
    eq := if k.eq.isEmpty then [] else k.eq ++ [{ ctx := x, op := 0, cyc := k.now }] }

/-- What an issued bundle leaves in its context, when it takes no transfer and ends no loop: the next address (a pending target that
is reached, else the next bundle), the count, and FPFLAGS and BOUND with what the results due raised. `c0` is the context before. -/
def Machine.Ctx.after (c c0 : Ctx) : Ctx :=
  let p := advancePend c.pend
  { c with
    pc := p.2.getD (c.pc + 32), pend := p.1, count := c.count + 1, setLen := c.setLen - 1, part2 := false
    needM := 0, needE := 0, waits := false
    sys := { c.sys with fp := c.sys.fp ||| c0.dueFlags, bound := c.sys.bound || c0.dueBound } }

/-- A trigger of unit u consumes its pending override of port d (R104, R110). -/
def Machine.Ctx.used (c : Ctx) (u : Nat) : Ctx := c.setUnit u { c.unit u with d := none }

/-- A unit's result of latency lat is on its way to its latch and its register, with the flags it raises (R28, R32, R84); the override of
port d is consumed. -/
def Machine.Ctx.gets (c : Ctx) (g : Trig) (lat : Nat) (v : Val) (fl : Flags) : Ctx :=
  { c.used g.unit with
    flight := c.flight ++ [{ due := c.count + lat, born := c.count, unit := g.unit + 1, dest := g.dest, val := some v, flags := fl }] }

/-- A bundle of weight 0 is charged to the pair (R53). -/
def Machine.Pair.charged (p : Pair) : Pair := { p with sum := min 0xFFFF p.sum, fresh := false }

/-- The end of a bundle of weight 0 that takes no transfer: its context goes on to the next bundle, the core's cycle ends. -/
def Machine.State.ends (r : State) (core x : Nat) (c0 : Ctx) : State :=
  (r.modCore core (fun k =>
    { k.setCtx x ((k.ctx x).after c0) with now := k.now + 1, stalled := false, granted := false })).modPair (r.pairOf core) Pair.charged

/-- The state r after a trigger's effect, at the end of a bundle whose slots 6 and 7 are empty. -/
def Machine.State.closes (r : State) (core x : Nat) (c0 : Ctx) : State := (r.modCore core (fun k => k.nops x)).ends core x c0

/-- The state in which a trigger of unit u takes effect: its override of port d is consumed. -/
def Machine.State.inTrigger (s : State) (core x u : Nat) : State := (s.atIssue core x).modCtx core x (fun c => c.used u)

/-- The state after a bundle that holds one word, whose effect is f on the context that issues it, and no other. -/
def Machine.State.issued (s : State) (core x : Nat) (f : Ctx → Ctx) : State :=
  ((s.atIssue core x).modCore core (fun k => (k.nops x).setCtx x (f (k.ctx x)))).ends core x (s.ctx core x)

end Sys2Proof
end

