-- ==== Sys2Proof/Certificates/Slice0/Obligations.lean ====
section
/-! DEFINITION. The statements about the model, for the provers, and the values and conditions they speak of as the manual gives them. -/

open Sys2Proof Sys2Proof.Machine

namespace Sys2Proof.Claims

/-! ### The scalar units: results as R123 to R126 give them, over the integers -/

/-- A result that wraps to 64 bits (WRAP64). -/
def wrap64 (i : Int) : Dw := BitVec.ofInt 64 i
/-- 1 when the relation holds and 0 otherwise. -/
def truth (p : Bool) : Dw := BitVec.ofNat 64 p.toNat
/-- The field of R124 in x: its least bit and its width, none of it above bit 63. -/
def fieldLsb (y : Dw) : Nat := (y.extractLsb' 0 6).toNat
def fieldWidth (y : Dw) : Nat := min (y.extractLsb' 6 7).toNat (64 - fieldLsb y)
/-- x with the bits of the field taken from f. -/
def putField (x y : Dw) (f : Nat) : Nat :=
  x.toNat % 2 ^ fieldLsb y + f % 2 ^ fieldWidth y * 2 ^ fieldLsb y
    + x.toNat / 2 ^ (fieldLsb y + fieldWidth y) * 2 ^ (fieldLsb y + fieldWidth y)

/-- The SX operations of R123 and R124: the trigger port, the head and the unit of an instruction, and the result from x (t), y (port a)
and b. -/
def sx (i : Instr) : Option (Nat × MoveHead × BitVec 1 × (Dw → Dw → Dw → Dw)) :=
  match i with
  | .sxAdd m u => some (4, m, u, fun x y _ => wrap64 (x.toInt + y.toInt))
  | .sxSub m u => some (5, m, u, fun x y _ => wrap64 (x.toInt - y.toInt))
  | .sxAnd m u => some (6, m, u, fun x y _ => x &&& y)
  | .sxOr m u => some (7, m, u, fun x y _ => x ||| y)
  | .sxXor m u => some (8, m, u, fun x y _ => x ^^^ y)
  | .sxShl m u => some (9, m, u, fun x y _ => BitVec.ofNat 64 (x.toNat * 2 ^ (y.toNat % 64)))
  | .sxShr m u => some (10, m, u, fun x y _ => BitVec.ofNat 64 (x.toNat / 2 ^ (y.toNat % 64)))
  | .sxSar m u => some (11, m, u, fun x y _ => wrap64 (x.toInt / (2 ^ (y.toNat % 64) : Nat)))
  | .sxMin m u => some (12, m, u, fun x y _ => wrap64 (min x.toInt y.toInt))
  | .sxMax m u => some (13, m, u, fun x y _ => wrap64 (max x.toInt y.toInt))
  | .sxMinu m u => some (14, m, u, fun x y _ => BitVec.ofNat 64 (min x.toNat y.toNat))
  | .sxMaxu m u => some (15, m, u, fun x y _ => BitVec.ofNat 64 (max x.toNat y.toNat))
  | .sxCeq m u => some (16, m, u, fun x y _ => truth (x.toNat == y.toNat))
  | .sxCne m u => some (17, m, u, fun x y _ => truth (x.toNat != y.toNat))
  | .sxClt m u => some (18, m, u, fun x y _ => truth (x.toInt < y.toInt))
  | .sxCltu m u => some (19, m, u, fun x y _ => truth (x.toNat < y.toNat))
  | .sxCle m u => some (20, m, u, fun x y _ => truth (x.toInt ≤ y.toInt))
  | .sxCleu m u => some (21, m, u, fun x y _ => truth (x.toNat ≤ y.toNat))
  | .sxSel m u => some (22, m, u, fun x y b => if b.getLsbD 0 then x else y)
  | .sxClz m u => some (23, m, u, fun x _ _ => BitVec.ofNat 64 (((List.range 64).takeWhile (fun k => !(x.getMsbD k))).length))
  | .sxPopc m u => some (24, m, u, fun x _ _ => BitVec.ofNat 64 (((List.range 64).filter (fun k => x.getLsbD k)).length))
  | .sxSext m u => some (25, m, u, fun x y _ =>
      let n := y.toNat % 128
      if 1 ≤ n ∧ n ≤ 63 then (x.setWidth n).signExtend 64 else x)
  | .sxAdds m u => some (26, m, u, fun x y _ => wrap64 (max (-(2 ^ 63)) (min (2 ^ 63 - 1) (x.toInt + y.toInt))))
  | .sxBfx m u => some (27, m, u, fun x y _ => BitVec.ofNat 64 (x.toNat / 2 ^ fieldLsb y % 2 ^ fieldWidth y))
  | .sxBfi m u => some (28, m, u, fun x y b => BitVec.ofNat 64 (putField x y b.toNat))
  | .sxPass m u => some (29, m, u, fun x _ _ => x)
  | .sxPack m u => some (30, m, u, fun x y _ => BitVec.ofNat 64 (x.toNat % 2 ^ 32 + 2 ^ 32 * (y.toNat % 2 ^ 32)))
  | _ => none

/-- The quotient truncated toward zero and the remainder with the sign of x, from the magnitudes (R126). -/
def quot (x y : Int) : Int := if (x < 0) = (y < 0) then (x.natAbs / y.natAbs : Nat) else -(x.natAbs / y.natAbs : Nat)

/-- The SM operations of R125 and R126: port, head, latency and result. -/
def sm (i : Instr) : Option (Nat × MoveHead × Nat × (Dw → Dw → Dw → Dw)) :=
  match i with
  | .smMul m => some (4, m, 3, fun x y _ => wrap64 (x.toInt * y.toInt))
  | .smMulh m => some (5, m, 3, fun x y _ => (BitVec.ofInt 128 (x.toInt * y.toInt)).extractLsb' 64 64)
  | .smMulhu m => some (6, m, 3, fun x y _ => (BitVec.ofNat 128 (x.toNat * y.toNat)).extractLsb' 64 64)
  | .smMadd m => some (7, m, 3, fun x y b => wrap64 (x.toInt * y.toInt + b.toInt))
  | .smDiv m => some (8, m, 24, fun x y _ => if y = 0 then wrap64 (-1) else wrap64 (quot x.toInt y.toInt))
  | .smDivu m => some (9, m, 24, fun x y _ => if y = 0 then wrap64 (-1) else BitVec.ofNat 64 (x.toNat / y.toNat))
  | .smRem m => some (10, m, 24, fun x y _ => if y = 0 then x else wrap64 (x.toInt - quot x.toInt y.toInt * y.toInt))
  | .smRemu m => some (11, m, 24, fun x y _ => if y = 0 then x else BitVec.ofNat 64 (x.toNat - x.toNat / y.toNat * y.toNat))
  | _ => none

end Sys2Proof.Claims

/-- O: every SX operation (R123, R124), triggered by a context that may trigger with the unit's cfg 0 (R122), completes: its result goes
to the latch and register of the trigger with latency 1, and the bundle ends. The next state is given whole, so every other register,
flag, special register and byte of memory is unchanged. -/
def Obligations.ScalarResults : Prop :=
  ∀ (i : Instr) (p : Nat) (m : MoveHead) (u : BitVec 1) (val : Dw → Dw → Dw → Dw) (s : State) (core x : Nat),
    Claims.sx i = some (p, m, u, val) → s.mayTrigger core x m = true → (s.trigger core x u.toNat p m).cfg = 0 →
    let g := s.trigger core x u.toNat p m
    exec i s = .next (s.issued core x (fun c => c.gets g 1 (.s (val g.ts g.sa g.sb)) 0))

/-- O: every SM operation (R125, R126) completes with its latency and result, and changes nothing else. -/
def Obligations.MultiplierResults : Prop :=
  ∀ (i : Instr) (p : Nat) (m : MoveHead) (lat : Nat) (val : Dw → Dw → Dw → Dw) (s : State) (core x : Nat),
    Claims.sm i = some (p, m, lat, val) → s.mayTrigger core x m = true → (s.trigger core x 2 p m).cfg = 0 →
    let g := s.trigger core x 2 p m
    exec i s = .next (s.issued core x (fun c => c.gets g lat (.s (val g.ts g.sa g.sb)) 0))

namespace Sys2Proof.Claims

/-- The transfers of R127 without a result: port, head, and the target (none when the condition fails) from the bundle's address, t
and a. -/
def transfer (i : Instr) : Option (Nat × MoveHead × (Dw → Dw → Dw → Option Dw)) :=
  match i with
  | .jmp m => some (4, m, fun _ t _ => some t)
  | .br m => some (5, m, fun pc t _ => some (pc + t))
  | .bnz m => some (6, m, fun pc t a => if a = 0 then none else some (pc + t))
  | .bz m => some (7, m, fun pc t a => if a = 0 then some (pc + t) else none)
  | .ret m => some (9, m, fun _ t _ => some t)
  | _ => none

/-- A transfer to t is pending: three bundles end before it is reached, this one and its two delay bundles (R38). -/
def goesTo (c : Ctx) (t : Dw) : Ctx := { c with pend := c.pend ++ [(3, t)] }

/-- The trigger instructions that a context may issue one of, with the unit and port of each. -/
def trig (i : Instr) : Option (Nat × Nat × MoveHead) := trigOf i

end Sys2Proof.Claims

/-- O: jmp, br, bnz, bz and ret (R127, R38) complete: a taken transfer's target becomes pending behind its two delay bundles, one that
is not taken has no effect; nothing else changes. call (R128) completes: the result address + 96 goes to b3 and to s63 with latency 1,
whatever the source of t, W and a pending override; the target is address + t. -/
def Obligations.Transfers : Prop :=
  (∀ (i : Instr) (p : Nat) (m : MoveHead) (target : Dw → Dw → Dw → Option Dw) (s : State) (core x : Nat),
    Claims.transfer i = some (p, m, target) → s.mayTrigger core x m = true → (s.trigger core x 3 p m).cfg = 0 →
    let g := s.trigger core x 3 p m
    exec i s = .next (s.issued core x (fun c =>
      match target c.pc g.ts g.sa with
      | some t => Claims.goesTo (c.used 3) t
      | none => c.used 3)))
  ∧ ∀ (m : MoveHead) (s : State) (core x : Nat), s.mayTrigger core x m = true → (s.trigger core x 3 8 m).cfg = 0 →
    exec (.call m) s = .next (s.issued core x (fun c =>
      Claims.goesTo { c.used 3 with
        flight := c.flight ++ [{ due := c.count + 1, born := c.count, unit := 4, dest := some 63, val := some (.s (c.pc + 96)) }] }
        (c.pc + (s.trigger core x 3 8 m).ts)))

/-- O: loop, mloop, lbrk, rept, wait, sysr and warm, each within the limits of its operands, complete (R130, R133, R134, R139, R140, R142,
R151): the loop unit, the repeat prefix or the wake queue of the context takes its new value, or the register that b names receives the
system register, which reads alike in a tidelocked group's twins (another reading mismatches, R46); warm arms the comparator that a names for the issuing context, or disarms it, with its byte count at zero; and nothing else
changes. -/
def Obligations.LoopAndPrefix : Prop :=
  ∀ (m : MoveHead) (s : State) (core x : Nat), s.mayTrigger core x m = true →
    let g (p : Nat) : Trig := s.trigger core x 3 p m
    ((g 10).cfg = 0 → (g 10).sa.toNat % 4 ≠ 3 →
      exec (.loop m) s = .next (s.issued core x (fun c => { c.used 3 with
        loops := { c.loops.setLevel ((g 10).sa.toNat % 4)
            { active := true, start := c.pc + 32, count := max 1 ((g 10).ts.toNat % 2 ^ 32), order := c.loops.next } with
          next := c.loops.next + 1 } })))
    ∧ ((g 11).cfg = 0 → mloopOk (g 11).ts (g 11).sa (g 11).sb = true →
      exec (.mloop m) s = .next (s.issued core x (fun c => { c.used 3 with
        loops := { c.loops with
          ml := { active := true, start := c.pc + 32, n := (g 11).ts.toNat % 2 ^ 32
                  mAbs := max ((g 11).ts.toNat % 2 ^ 32) ((g 11).sa.toNat / 2 ^ 8 % 16)
                  k := (g 11).sa.toNat % 64, st := (g 11).sa.toNat / 2 ^ 8 % 16, sts := (g 11).sa.toNat / 2 ^ 12 % 16
                  rb := (g 11).sa.getLsbD 16, carried := (bytesOf 8 (g 11).sb.toNat).filter (fun i => i != 0), order := c.loops.next }
          l2 := { c.loops.l2 with active := false }
          next := c.loops.next + 1 } })))
    ∧ ((g 12).cfg = 0 →
      exec (.lbrk m) s = .next (s.issued core x (fun c => Claims.goesTo { c.used 3 with
        loops := match c.loops.latest with
          | some k => c.loops.setLevel k { c.loops.level k with active := false, count := 0 }
          | none => c.loops } (c.pc + (g 12).ts))))
    ∧ ((g 13).cfg = 0 → 1 ≤ (g 13).ts.toNat → (g 13).ts.toNat ≤ 4096 →
      exec (.rept m) s = .next (s.issued core x (fun c => { c.used 3 with
        rept := some { r := (g 13).ts.toNat, sA := ((g 13).sa.setWidth 32).signExtend 64, sB := ((g 13).sb.setWidth 32).signExtend 64 } })))
    ∧ ((g 16).cfg = 0 → (s.ctx core x).tokens ≠ 0 →
      exec (.wait m) s = .next (s.issued core x (fun c => { c.used 3 with tokens := c.tokens - 1 })))
    ∧ ((g 18).cfg = 0 → sysrFault (s.ctx core x).priv (g 18).ts (g 18).sb = none →
      (s.atIssue core x).twinReadsOther core (g 18).ts.toNat = false →
      exec (.sysr m) s = .next (s.issued core x (fun c => { c.used 3 with
        flight := c.flight ++ [{ due := c.count + 1, born := c.count, unit := 0, dest := some ((g 18).sb.setWidth 8), latch := false
                                 val := some (.s ((s.atIssue core x).sysRead core x (s.ctx core x).sys.fp (s.ctx core x).sys.bound
                                   (g 18).ts.toNat)) }] })))
    ∧ ((g 17).cfg = 0 → (g 17).ts.toNat < 2 ^ 20 → (g 17).sa.toNat < 2 ^ 43 →
      exec (.warm m) s = .next (((s.atIssue core x).modCore core (fun k =>
        let a := (g 17).sa.toNat
        let comp : Comp := { owner := if a % 2 ^ 20 = 0 then none else some x, base := (g 17).ts.toNat, len := a % 2 ^ 20
                             thr := max 1 (a / 2 ^ 20 % 2 ^ 20) }
        { (k.nops x).setCtx x ((k.ctx x).used 3) with comps := Sp.put k.comps (a / 2 ^ 40) comp })).ends core x (s.ctx core x)))

/-- O: sysw, trap, eret and halt (R151, R150, R149, R143) take effect after their bundle has ended: the write of the system register, the
BREAK with CODE t[7:0], the return, the end of the context. sysw and halt wait while a promote-acquire of the context does (log entry 123). A context that ends (R143) has its results in flight and pending targets
discarded, and the comparators it owns disarmed (R142); its core's queues and scratchpad and the other contexts stay. -/
def Obligations.AfterTheBundle : Prop :=
  (∀ (m : MoveHead) (s : State) (core x : Nat), s.mayTrigger core x m = true →
    let g (p : Nat) : Trig := s.trigger core x 3 p m
    let t := s.issued core x (fun c => c.used 3)
    ((g 19).cfg = 0 → syswFault (s.ctx core x).priv (g 19).sa (g 19).ts = none → ((g 19).sa = 0x8B → s.xinvFull = false) →
      (s.core core).promises x = false →
      exec (.sysw m) s = .next (t.sysWrite core x (g 19).sa.toNat (g 19).ts))
    ∧ ((g 14).cfg = 0 → exec (.trap m) s = .next (t.takeTrap core x { cause := 15, code := (g 14).ts.toNat % 256 }))
    ∧ ((g 15).cfg = 0 → (s.ctx core x).inHandler = true → exec (.eret m) s = .next (t.eretCtx core x))
    ∧ ((g 20).cfg = 0 → (s.core core).promises x = false → exec (.halt m) s = .next (t.haltCtx core x)))
  ∧ ∀ (k : Core) (x : Nat),
    let e := k.endCtx x
    (e.ctx x).phase = .ended ∧ (e.ctx x).flight = [] ∧ (e.ctx x).shadow = [] ∧ (e.ctx x).pend = [] ∧ (e.ctx x).chi = []
      ∧ e.run ≠ some x ∧ (∀ q ∈ e.comps, q.2.owner ≠ some x) ∧ e.scratch = k.scratch ∧ e.mq = k.mq ∧ e.eq = k.eq
      ∧ (∀ y, y ≠ x → e.ctx y = k.ctx y)

/-- O: trap entry (R147): a cause that goes to the handler saves the next address and the pending targets, writes TCAUSE, sets INH or UIH,
sets the loop unit, rept, dispatch records, count and s48 to s63 aside, clears the latches, moves the results in flight to the shadow
buffer, and goes on at UHVEC or UIVEC; the privilege, the queues and memory stay. PROMOTE_LOST (14) takes the lost result with it, so that
it is raised once. That the plain moves of the last bundle are written before the registers are set aside (`plainDue`) is the model's
reading, log entry 40: R147 speaks of results in flight; that TADDR stays without an address and 0xF is the position of a trap that has
none is log entries 102 and 39. -/
def Obligations.TrapEntry : Prop :=
  ∀ (s : State) (core x : Nat) (t : Trap), (s.ctx core x).routes t.cause = true →
    let b := if t.cause = 14 then s.modCtx core x Ctx.dropLost else s
    let c := ((b.core core).landPlain x).ctx x
    let r := s.takeTrap core x t
    let d := r.ctx core x
    let user := t.cause == 16
    d.sys.tepc = c.pc ∧ d.sys.tcause = BitVec.ofNat 64 (t.cause + t.pos % 16 * 2 ^ 8 + t.code % 256 * 2 ^ 16)
      ∧ d.sys.tpend0 = tpendOf c.pend[0]? ∧ d.sys.tpend1 = tpendOf c.pend[1]?
      ∧ d.sys.taddr = t.addr.getD c.sys.taddr ∧ d.sys.xfstat = t.xfstat.getD c.sys.xfstat
      ∧ d.inh = !user ∧ d.uih = user ∧ d.pc = (if user then c.sys.uivec else c.sys.uhvec) ∧ d.count = 0 ∧ d.pend = []
      ∧ d.loops = {} ∧ d.rept = none ∧ d.recM = none ∧ d.recE = none ∧ d.flight = [] ∧ d.shadow = [] ∧ d.bank = c.bank
      ∧ c.bank = (b.ctx core x).plainDue.foldl Bank.deliver (b.ctx core x).bank
      ∧ d.priv = c.priv
      ∧ d.saved = some { loops := c.loops, rept := c.rept, recM := c.recM, recE := c.recE, count := c.count, hi := c.bank.hi
                         hiMarks := c.bank.hiMarks, part2 := c.part2, needM := c.needM, needE := c.needE
                         flight := c.shadow ++ toShadow c.flight }
      ∧ (r.core core).latches = [] ∧ (r.core core).mq = (s.core core).mq ∧ (r.core core).eq = (s.core core).eq ∧ r.mem = s.mem

namespace Sys2Proof.Claims

/-- A context that a kill has ended (R384): it issues no more, and what was in flight for it is discarded. -/
def ended (c : Ctx) : Prop := c.phase = .ended ∧ c.flight = [] ∧ c.shadow = [] ∧ c.pend = []

end Sys2Proof.Claims

/-- O: a cause from 1 to 15 goes to the handler only when its bit of UHMASK is 1 and the context is in no handler; otherwise the launch is
killed with that status (R148). A kill (R384) ends every context of the launch's core groups, discards what their queues and marks hold and
the recvs that wait, and gives the launch its status unless it has one; where no context of it is a signalling member of a phaser (such a
departure is a release, R266, R342) it leaves scratchpads, tiles, L1 lines and memory for the kernel-end release that follows (R143, another
statement's), and no other core changes. That the operation in the array ends with its queue is the model's
reading (log entry 35), and so are the end of encoder commands (log entry 61) and the messages that tell the other devices of the kill
(log entry 53), that a launch not placed yet never is (log entry 35), and that its saved images are dropped (log entry 35). -/
def Obligations.UnroutedTrapKills : Prop :=
  (∀ (s : State) (core x : Nat) (t : Trap), 1 ≤ t.cause → t.cause ≤ 15 → t.xfstat = none →
    ((s.ctx core x).routes t.cause = (!((s.ctx core x).inh || (s.ctx core x).uih) && (s.ctx core x).sys.uhmask.getLsbD t.cause))
    ∧ ((s.ctx core x).routes t.cause = false → s.takeTrap core x t = s.killLaunch (s.ctx core x).launch t.cause))
  ∧ ∀ (s : State) (l status : Nat),
    let L := s.launch l
    let t := s.killLaunch l status
    let mine (k : Nat) : Prop := (∃ g, g ∈ L.groups ∧ g.core = k) ∧ (s.core k).launch = some l
    (L.phase = .done → t = s)
    ∧ (L.phase ≠ .done →
      (t.launch l).status = (if L.status = 0 then status else L.status) ∧ (t.launch l).saved = []
      ∧ (t.launch l).groups = L.groups ∧ (t.launch l).empty = (L.empty || L.phase == .waiting)
      ∧ (t.launch l).phase = (if L.phase = .waiting then .running else L.phase)
      ∧ (∀ k, mine k →
          let a := s.core k
          let b := t.core k
          (∀ x, x ∈ a.ctxs.map (·.1) → (a.ctx x).phase ≠ .off → Claims.ended (b.ctx x))
          ∧ b.mq = [] ∧ b.eq = [] ∧ b.mrun = none ∧ b.marks = [] ∧ b.promos = [] ∧ b.frozen = none ∧ b.stalled = false
          ∧ (∀ c, c ∈ (t.clu (cluOfCore k)).enc → c.core ≠ k))
      ∧ ((∀ k x p, mine k → s.departSignals p k x = false) →
        (∀ k, mine k → let a := s.core k; let b := t.core k
          b.scratch = a.scratch ∧ b.tiles = a.tiles ∧ b.l1 = a.l1 ∧ b.sa = a.sa ∧ b.log = a.log)
        ∧ (∀ k, ¬ mine k → t.core k = s.core k) ∧ t.mem = s.mem ∧ t.l2 = s.l2)
      ∧ (∀ id x, Sp.find? s.xfers id = some x → mine x.core → x.op = 8 → x.phase = .queued →
          Sp.find? t.xfers id = some { x with phase := .written, status := 3 })
      ∧ (let a := L.shares.foldl (fun a d => a.sendOrbit (.shareKill d Config.devId l status)) s
         t.orbitOut = a.orbitOut ∧ t.orbitWait = a.orbitWait))

/-- O: the return (R149) from a handler whose context holds what entry set aside: the next bundle is at TEPC, the pending targets of
TPEND0 and TPEND1, s48 to s63, the loop unit, rept, the dispatch records, the count, and what a blocked bundle had dispatched already (R40)
return, results of the handler are discarded, and the flags of handlers are clear. -/
def Obligations.EretRestores : Prop :=
  ∀ (c : Ctx) (v : Saved), c.saved = some v → Sp.wf (0 : Dw) c.bank.s = true →
    let d := c.eret
    d.pc = c.sys.tepc ∧ d.pend = pendOf c.sys.tpend0 ++ pendOf c.sys.tpend1 ∧ d.loops = v.loops ∧ d.rept = v.rept ∧ d.recM = v.recM
      ∧ d.recE = v.recE ∧ d.count = v.count ∧ d.part2 = v.part2 ∧ d.needM = v.needM ∧ d.needE = v.needE
      ∧ d.flight = [] ∧ d.shadow = v.flight ∧ d.inh = false ∧ d.uih = false
      ∧ (∀ k, k < 16 → v.hi.length = 16 → d.bank.read (48 + k) = .s (v.hi.getD k 0))
      ∧ (∀ r, r < 48 ∨ 64 ≤ r → d.bank.read r = c.bank.read r)

/-- O: a move whose guard is 0 is dropped with any trigger it carries (R31 step 2): the bundle ends, and nothing else happens. -/
def Obligations.GuardDrops : Prop :=
  ∀ (i : Instr) (u p : Nat) (m : MoveHead) (s : State) (core x : Nat), Claims.trig i = some (u, p, m) → m.ok = true →
    s.free core x = true →
    (let c := (s.atIssue core x).ctx core x
     ((c.bank.greg m.grd.toNat).toNat + m.inv.toNat) % 2 = 0 ∧ (m.grd = 0 ∨ c.bank.mark (0xA0 + m.grd.toNat) = none) ∧ c.bank.mark 0 = none) →
    exec i s = .next (s.issued core x (fun c => c))

namespace Sys2Proof.Claims

/-- The write of a plain move to register d (R31 step 5, R103): visible from the next bundle. Nothing is written to s0, m0 or g0 (R102). -/
def writes (c : Ctx) (slot d : Nat) (v : Val) : Ctx :=
  if d = 0 ∨ d = 0x80 ∨ d = 0xA0 then c
  else { c with flight := c.flight ++ [{ due := c.count + 1, born := c.count, unit := 0, slot := slot, dest := some (BitVec.ofNat 8 d)
                                         latch := false, val := some v }] }

/-- The ports that hold vectors (R109): b of LV, a and b of VA0, VA1 and VF, b of VX. -/
def vectorPort (u : Nat) (b : Bool) : Bool :=
  match u, b with
  | 5, true => true
  | 7, _ => true
  | 8, _ => true
  | 9, _ => true
  | 10, true => true
  | _, _ => false
/-- A value in a port of that class. -/
def held (u : Nat) (b : Bool) (v : Val) : Vec := if vectorPort u b then v.toV else v.toS.setWidth 4096

/-- The moves of a bundle that writes registers only. -/
def writesAll (c : Ctx) (r : State) (core x : Nat) : Nat → List Nat → Ctx
  | _, [] => c
  | k, w :: t =>
    let c' := if ((((r.ctx core x).bank.greg (w / 2 ^ 20 % 4)).toNat + w / 2 ^ 22 % 2) % 2 = 1) then
        writes c k (w % 2 ^ 8) (r.readSrc core x 0 0 (w / 2 ^ 10 % 2 ^ 10)).val
      else c
    writesAll c' r core x (k + 1) t

end Sys2Proof.Claims

/-- O: the conversions between the classes S, V, M and G (R105), lane by lane and bit by bit. -/
def Obligations.ClassConversions : Prop :=
  (∀ (x : Dw) (i : Nat), i < 128 → ((Val.s x).toV).extractLsb' (32 * i) 32 = x.setWidth 32)
  ∧ (∀ (b : BitVec 1) (i : Nat), i < 128 → ((Val.g b).toV).extractLsb' (32 * i) 32 = b.setWidth 32)
  ∧ (∀ m : Mask, (Val.m m).toV = m.setWidth 4096) ∧ (∀ v : Vec, (Val.v v).toV = v)
  ∧ (∀ x : Dw, (Val.s x).toS = x ∧ (Val.s x).toM = x.setWidth 128 ∧ (Val.s x).toG = x.setWidth 1)
  ∧ (∀ v : Vec, (Val.v v).toS = v.setWidth 64 ∧ (Val.v v).toM = v.setWidth 128 ∧ (Val.v v).toG = v.setWidth 1)
  ∧ (∀ m : Mask, (Val.m m).toS = m.setWidth 64 ∧ (Val.m m).toM = m ∧ (Val.m m).toG = m.setWidth 1)
  ∧ (∀ b : BitVec 1, (Val.g b).toS = b.setWidth 64 ∧ (Val.g b).toM = b.setWidth 128 ∧ (Val.g b).toG = b)

/-- O: a move to a register and a move to port a, b, d or cfg of a unit complete (R103, R31): the register is written with latency 1
(s0, m0 and g0 are not), the port holds the value in its own class (R105, R109), port d the identifier of bits 7 to 0, which must name a
register (R110). Nothing else changes. -/
def Obligations.MovesAndPorts : Prop :=
  ∀ (m : PlainHead) (s : State) (core x : Nat), m.ok = true → s.free core x = true →
    s.takes core x m.grd.toNat m.inv.toNat m.src.toNat = true →
    let v := ((s.atIssue core x).readSrc core x 0 0 m.src.toNat).val
    (∀ d : BitVec 8, isReg d.toNat = true → exec (.registerMove m d) s = .next (s.issued core x (fun c => Claims.writes c 0 d.toNat v)))
    ∧ ∀ u : BitVec 4, u.toNat < 12 →
      let put (f : UnitPorts → UnitPorts) : Ctx → Ctx := fun c => c.setUnit u.toNat (f (c.unit u.toNat))
      exec (.portAWrite m u) s = .next (s.issued core x (put (fun p => { p with a := Claims.held u.toNat false v })))
      ∧ exec (.portBWrite m u) s = .next (s.issued core x (put (fun p => { p with b := Claims.held u.toNat true v })))
      ∧ exec (.portCfgWrite m u) s = .next (s.issued core x (put (fun p => { p with cfg := v.toS })))
      ∧ (isReg (v.toS.toNat % 256) = true →
          exec (.portDOverride m u) s = .next (s.issued core x (put (fun p => { p with d := some (v.toS.setWidth 8) }))))
      ∧ (isReg (v.toS.toNat % 256) = false →
          exec (.portDOverride m u) s = .next ((s.settleLoops core x).takeTrap core x { cause := 2, pos := 0 }))

/-- O: a bundle whose six slots are moves to registers reads every source and guard before it writes anything (R31): each move that its
guard lets through becomes a write of latency 1 with the value its source had at the start of the bundle, in slot order. -/
def Obligations.BundleReadsThenWrites : Prop :=
  ∀ (b : Bundle) (s : State) (core x : Nat), s.free core x = true → b.hdr = 0 → b.mat = 0 → b.eng = 0 → b.pool = 0 →
    staticFault b = none → (∀ w ∈ b.moves, mvIsPort w = false) →
    (∀ w ∈ b.moves, ((s.atIssue core x).readSrc core x 0 0 (mvSrc w)).mark = none) →
    (∀ g, g < 4 → ((s.atIssue core x).ctx core x).bank.mark (0xA0 + g) = none) →
    exec (.bundleIssue b) s = .next (s.issued core x (fun c => Claims.writesAll c (s.atIssue core x) core x 0 b.moves))

/-- O: a bundle with a static fault takes none of its effects: the trap is ILLEGAL_BUNDLE (1), ILLEGAL_MOVE (2) or SCHEDULE_FAULT (3)
at the slot of the first fault (R119). -/
def Obligations.StaticFaultTraps : Prop :=
  ∀ (b : Bundle) (s : State) (core x : Nat) (f : Illegal) (p : Nat), s.free core x = true → staticFault b = some (f, p) →
    exec (.bundleIssue b) s = .next ((s.settleLoops core x).takeTrap core x
      { cause := (match f with
          | .illegalBundle => 1
          | .illegalMove => 2
          | .scheduleFault => 3), pos := p })

/-- O: a trigger of SX, SM or CT whose unit's cfg is not 0 raises ILLEGAL_MOVE at its slot, with none of its effects (R111, R122). -/
def Obligations.IllegalCfgTraps : Prop :=
  ∀ (i : Instr) (u p : Nat) (m : MoveHead) (s : State) (core x : Nat), Claims.trig i = some (u, p, m) → u < 4 →
    s.mayTrigger core x m = true → (s.trigger core x u p m).cfg ≠ 0 → (u = 3 → p = 16 → (s.ctx core x).tokens ≠ 0) →
    exec i s = .next ((s.settleLoops core x).takeTrap core x { cause := 2, pos := 0 })

namespace Sys2Proof.Claims

/-- What context y of core k reads in system register n, by a sysr of its next bundle (R84, R151, R152). -/
def reads (s : State) (k y n : Nat) : Dw := s.sysRead k y (s.ctx k y).sys.fp (s.ctx k y).sys.bound n

/-- Which part of the machine has the register n of (core, x) and of (k, y) in common: the table's "One per" (R152). -/
def shared (s : State) (core x k y n : Nat) : Prop :=
  if n ∈ [0x41, 0x42] then s.pairOf k = s.pairOf core
  else if n = 0x44 then k = core ∨ s.upperOf core = some k
  else if n = 0x83 then cluOfCore k = cluOfCore core
  else if n ∈ [0x88, 0x8A, 0x8C, 0x8D] then dieOfCore k = dieOfCore core
  else if n = 0x8F then True
  else k = core ∧ y = x

/-- A field that a write sets: bits [hi:lo] of v, in place. -/
def keep (v : Dw) (hi lo : Nat) : Nat := v.toNat / 2 ^ lo % 2 ^ (hi + 1 - lo) * 2 ^ lo

/-- The read-write registers whose write has no effect beside their fields, and what they read after a write of v; `old` is what they
read before (R55, R56, R64, R82 to R85, R152, R233, R297, R343, R345, R378, R412, R420, R430). -/
def afterWrite (inHandler : Bool) (n : Nat) (old v : Dw) : Option Dw :=
  let b (i : Nat) : Dw := BitVec.ofNat 64 i
  match n with
  | 0x41 => some (b (keep v 16 0))
  | 0x42 => some (b (keep v 47 16 + old.toNat % 2 ^ 16))
  | 0x44 => some v
  | 0x45 => some v
  | 0x46 => some (b (keep v 47 0))
  | 0x47 => some (b (keep v 4 0))
  | 0x4A => some (if inHandler then v else old)
  | 0x4D => some (if inHandler then b (keep v 63 5 + (if v.toNat % 4 = 3 then old.toNat % 4 else v.toNat % 4)) else old)
  | 0x4E => some (if inHandler then b (keep v 63 5 + (if v.toNat % 4 = 3 then old.toNat % 4 else v.toNat % 4)) else old)
  | 0x4F => some v
  | 0x50 => some (b (keep v 15 1))
  | 0x51 => some v
  | 0x57 => some (if v.getLsbD 0 then 0 else old)
  | 0x5B => some (b (if v.getLsbD 0 then old.toNat / 2 * 2 else old.toNat))
  | 0x83 => some v
  | 0x88 => if v.toNat % 64 = 0 then some v else none
  | 0x8A => some v
  | 0x8C => some v
  | 0x8D => some (b (keep v 47 32 + keep v 31 16 + old.toNat % 2 ^ 16))
  | 0x8F => some (b (keep v 51 12 + keep v 8 0))
  | _ => none

end Sys2Proof.Claims

/-- O: system registers (R151, R152). A number that is not listed or has a bit above 11, a sysr whose b[7:0] names no register of R110's
list (s0, m0 and g0 among them), and a sysw of a value that PHSEL (R343), UHVEC, UIVEC or RINGBASE refuse, raise ILLEGAL_MOVE; a user
context's sysr of a register of the cluster, the queues or the faults, and its sysw of a register that only the supervisor writes, raise
PERMISSION; the bundle has none of its effects. A write that is carried out reads back as its fields have it; every other register of every
context, every register of the register file, memory and scratchpads stay. CEIL, MODE, TESTCTL's fields and PHSEL read back, and the owner's
write of PHSTAT clears the bits of OVERRUN that it names. That UHVEC, UIVEC and RINGBASE refuse a value with a low bit set by ILLEGAL_MOVE is
the model's reading of 'must be 0' (R152, R345; log entry 86); that a user context may read EGRANT is its choice (log entry 103), and that
a write of REPLAYS reaches both twins of a tidelocked pair is log entry 20. -/
def Obligations.SystemRegisters : Prop :=
  (∀ (m : MoveHead) (s : State) (core x : Nat), s.mayTrigger core x m = true →
    let g (p : Nat) : Trig := s.trigger core x 3 p m
    let trap (c : Nat) : State := (s.settleLoops core x).takeTrap core x { cause := c, pos := 0 }
    let unlisted (n : Nat) : Prop := n < 0x40 ∨ n = 0x87 ∨ 0x91 < n
    let hidden (n : Nat) : Prop := (0x80 ≤ n ∧ n ≤ 0x86) ∨ (0x88 ≤ n ∧ n ≤ 0x8C) ∨ (0x8E ≤ n ∧ n ≤ 0x90)
    let readOnly (n : Nat) : Prop := (0x40 ≤ n ∧ n ≤ 0x44) ∨ n = 0x48 ∨ n = 0x49 ∨ n = 0x4B ∨ n = 0x4C ∨ (0x52 ≤ n ∧ n ≤ 0x55)
      ∨ (0x58 ≤ n ∧ n ≤ 0x5A) ∨ (0x5E ≤ n ∧ n ≤ 0x7F) ∨ n = 0x8D ∨ n = 0x91
    let refused (n v : Nat) : Prop := (n = 0x5C ∧ v / 2 ^ 8 % 2 = 0 ∧ 32 ≤ v % 256) ∨ ((n = 0x4F ∨ n = 0x51) ∧ v % 32 ≠ 0)
      ∨ (n = 0x88 ∧ v % 64 ≠ 0)
    let user : Prop := (s.ctx core x).priv = false
    ((g 18).cfg = 0 →
      (unlisted (g 18).ts.toNat → exec (.sysr m) s = .next (trap 2))
      ∧ (isWritable ((g 18).sb.toNat % 256) = false → exec (.sysr m) s = .next (trap 2))
      ∧ (user → hidden (g 18).ts.toNat → isWritable ((g 18).sb.toNat % 256) = true → exec (.sysr m) s = .next (trap 6)))
    ∧ ((g 19).cfg = 0 →
      (unlisted (g 19).sa.toNat → exec (.sysw m) s = .next (trap 2))
      ∧ (user → hidden (g 19).sa.toNat ∨ readOnly (g 19).sa.toNat → exec (.sysw m) s = .next (trap 6))
      ∧ (¬ user ∨ ¬ hidden (g 19).sa.toNat → refused (g 19).sa.toNat (g 19).ts.toNat → exec (.sysw m) s = .next (trap 2))))
  ∧ (∀ (s : State) (core x n : Nat) (v w : Dw), Claims.afterWrite (s.ctx core x).inHandler n (Claims.reads s core x n) v = some w →
    let t := s.sysWrite core x n v
    Claims.reads t core x n = w
    ∧ (∀ k y m, 0x40 ≤ m → m ≤ 0x91 → ¬ (m = n ∧ Claims.shared s core x k y n) → Claims.reads t k y m = Claims.reads s k y m)
    ∧ (∀ k y, (t.ctx k y).bank = (s.ctx k y).bank ∧ (t.core k).scratch = (s.core k).scratch) ∧ t.mem = s.mem)
  ∧ ∀ (s : State) (core x : Nat) (v : Dw),
    let after (n : Nat) : Dw := Claims.reads (s.sysWrite core x n v) core x n
    let key := phselKey core (s.ctx core x).sys.phsel.toNat
    (after 0x43).extractLsb' 6 3 = v.extractLsb' 6 3
    ∧ (after 0x40).extractLsb' 0 2 = (if v.toNat % 4 < 2 ∧ s.pairLive (s.pairOf core) = false then v.extractLsb' 0 2
        else (Claims.reads s core x 0x40).extractLsb' 0 2)
    ∧ after 0x80 = BitVec.ofNat 64 (Claims.keep v 13 12 + Claims.keep v 8 4)
    ∧ after 0x5C = BitVec.ofNat 64 (v.toNat % 512)
    ∧ (∀ i, ((s.sysWrite core x 0x5D v).phaser key).overrun.testBit i =
        ((s.phaser key).overrun.testBit i && !(decide ((s.phaser key).owner = some (core, x) ∧ i < 16) && v.getLsbD (16 + i))))

namespace Sys2Proof.Claims

/-! ### Memory accesses -/

/-- The little-endian number of n bytes from a. -/
def le (rd : Nat → Byte) (a : Nat) : Nat → Nat
  | 0 => 0
  | n + 1 => (rd a).toNat + 256 * le rd (a + 1) n

/-- The LS loads of R226: port, head, bytes and extension. -/
def load (i : Instr) : Option (Nat × MoveHead × Nat × (Nat → Dw)) :=
  match i with
  | .ldb m => some (4, m, 1, fun v => (BitVec.ofNat 8 v).signExtend 64)
  | .ldbu m => some (5, m, 1, fun v => BitVec.ofNat 64 v)
  | .ldh m => some (6, m, 2, fun v => (BitVec.ofNat 16 v).signExtend 64)
  | .ldhu m => some (7, m, 2, fun v => BitVec.ofNat 64 v)
  | .ldw m => some (8, m, 4, fun v => (BitVec.ofNat 32 v).signExtend 64)
  | .ldwu m => some (9, m, 4, fun v => BitVec.ofNat 64 v)
  | .ldd m => some (10, m, 8, fun v => BitVec.ofNat 64 v)
  | _ => none

/-- The LS stores of R226: port, head and bytes. -/
def store (i : Instr) : Option (Nat × MoveHead × Nat) :=
  match i with
  | .stb m => some (11, m, 1)
  | .sth m => some (12, m, 2)
  | .stw m => some (13, m, 4)
  | .std m => some (14, m, 8)
  | _ => none

/-- n bytes of a value at a, least first. -/
def bytesAt (a v n : Nat) : Cells := (List.range n).map (fun k => (a + k, BitVec.ofNat 8 (v / 256 ^ k)))

/-- Element k, of e bytes, of a vector. -/
def element (e k : Nat) (v : Vec) : Nat := v.toNat / 256 ^ (e * k) % 256 ^ e

/-- The elements an LV access of R229 moves: port, head, and from the trigger the bytes of an element, the alignment of the access,
the address of element k, and whether the mask decides which lanes are touched. -/
structure LvForm where
  port : Nat
  m : MoveHead
  esz : Nat → Nat
  addr : Trig → Nat → Nat
  masked : Bool := false
  align : Nat → Nat

/-- vld, vlds, vgth, vldb and vldm. The code of ESZ gives the size of an element where the form reads it. -/
def vload (i : Instr) : Option LvForm :=
  match i with
  | .vld m => some { port := 4, m := m, esz := fun _ => 4, align := fun _ => 64, addr := fun g k => (g.ts.toNat + g.sa.toNat) % 2 ^ 64 + 4 * k }
  | .vlds m => some { port := 6, m := m, esz := fun z => 2 ^ z, align := fun z => 2 ^ z
                      addr := fun g k => (((g.ts.toNat : Int) + k * g.sa.toInt) % 2 ^ 64).toNat }
  | .vgth m => some { port := 8, m := m, esz := fun _ => 4, align := fun _ => 4
                      addr := fun g k => (((g.sa.toNat : Int) + (BitVec.ofNat 32 (element 4 k g.tv)).toInt) % 2 ^ 64).toNat }
  | .vldb m => some { port := 10, m := m, esz := fun z => 2 ^ z, align := fun z => 2 ^ z, addr := fun g _ => (g.ts.toNat + g.sa.toNat) % 2 ^ 64 }
  | .vldm m => some { port := 11, m := m, esz := fun _ => 4, masked := true, align := fun _ => 64
                      addr := fun g k => (g.ts.toNat + g.sa.toNat) % 2 ^ 64 + 4 * k }
  | _ => none

/-- vst, vsts, vsct and vstm. -/
def vstore (i : Instr) : Option LvForm :=
  match i with
  | .vst m => some { port := 5, m := m, esz := fun _ => 4, align := fun _ => 64, addr := fun g k => (g.ts.toNat + g.sa.toNat) % 2 ^ 64 + 4 * k }
  | .vsts m => some { port := 7, m := m, esz := fun z => 2 ^ z, align := fun z => 2 ^ z
                      addr := fun g k => (((g.ts.toNat : Int) + k * g.sa.toInt) % 2 ^ 64).toNat }
  | .vsct m => some { port := 9, m := m, esz := fun _ => 4, align := fun _ => 4
                      addr := fun g k => (((g.sa.toNat : Int) + (BitVec.ofNat 32 (element 4 k g.tv)).toInt) % 2 ^ 64).toNat }
  | .vstm m => some { port := 12, m := m, esz := fun _ => 4, masked := true, align := fun _ => 64
                      addr := fun g k => (g.ts.toNat + g.sa.toNat) % 2 ^ 64 + 4 * k }
  | _ => none

/-- Whether the access of a form touches element k, with mask register `m`. -/
def LvForm.touches (f : LvForm) (m : Mask) (k : Nat) : Bool := !f.masked || m.getLsbD k

/-- Conditions of R223 and R229 on a form in the scratchpad: every element touched is aligned and inside. The forms that move 512 bytes
check the address of their first byte against 64. -/
def LvForm.fits (f : LvForm) (g : Trig) (z : Nat) (m : Mask) (size : Nat) : Prop :=
  ∀ k, k < 512 / f.esz z → f.touches m k = true →
    f.addr g k + f.esz z ≤ size ∧ (if f.align z = 64 then f.addr g 0 % 64 = 0 else f.addr g k % f.align z = 0)

/-- The integer atomics of R231 on w bits: port, head and the new value from old, x and y. -/
def atomic (i : Instr) : Option (Nat × MoveHead × (Nat → Nat → Nat → Nat → Option Nat)) :=
  let sg (w n : Nat) : Int := (BitVec.ofNat w n).toInt
  let un (w : Nat) (i : Int) : Nat := (BitVec.ofInt w i).toNat
  match i with
  | .aadd m => some (4, m, fun w old x _ => some ((old + x) % 2 ^ w))
  | .aincb m => some (5, m, fun _ old x _ => if old < x then some (old + 1) else none)
  | .acas m => some (6, m, fun _ old x y => if old = x then some y else none)
  | .aswp m => some (7, m, fun _ _ x _ => some x)
  | .aand m => some (8, m, fun w old x _ => some ((BitVec.ofNat w old &&& BitVec.ofNat w x).toNat))
  | .aor m => some (9, m, fun w old x _ => some ((BitVec.ofNat w old ||| BitVec.ofNat w x).toNat))
  | .axor m => some (10, m, fun w old x _ => some ((BitVec.ofNat w old ^^^ BitVec.ofNat w x).toNat))
  | .amin m => some (11, m, fun w old x _ => some (un w (min (sg w old) (sg w x))))
  | .amax m => some (12, m, fun w old x _ => some (un w (max (sg w old) (sg w x))))
  | .aminu m => some (13, m, fun _ old x _ => some (min old x))
  | .amaxu m => some (14, m, fun _ old x _ => some (max old x))
  | _ => none

/-- The floating-point atomics, with the model's own element operations (R231, R234). -/
def fpAtomic (i : Instr) : Option (Nat × MoveHead × (Nat → Nat → Nat → Nat × Flags)) :=
  match i with
  | .afadd m => some (15, m, fun f old x => arithElem 4 f 0 false 0 old x 0)
  | .afmin m => some (16, m, fun f old x => minmaxElem false f old x)
  | .afmax m => some (17, m, fun f old x => minmaxElem true f old x)
  | _ => none

/-- A result of AT on its way, with the flags it raises and BOUND. -/
def oldValue (c : Ctx) (g : Trig) (lat old : Nat) (fl : Flags) (bound : Bool) : Ctx :=
  { c with flight := c.flight ++ [{ due := c.count + lat, born := c.count, unit := 7, dest := g.dest
                                    val := some (.s (BitVec.ofNat 64 old)), flags := fl, bound := bound }] }

/-- The state after a bundle of one word whose effects are f on the issuing context and w on the core's scratchpad, in a tidelocked group
on both twins' (R45). -/
def scratchIssued (s : State) (core x : Nat) (f : Ctx → Ctx) (w : Cells) : State :=
  ((s.atIssue core x).modCore core (fun k =>
    let k := (k.nops x).setCtx x (f (k.ctx x))
    if w = [] then k else k.onTwin (fun c => { c with scratch := Memory.writes c.scratch w }))).ends core x (s.ctx core x)

/-- The scratchpad of an upper twin shows what the core's does (R44). -/
def twinAlike (k : Core) : Prop := ∀ t, k.twin = some t → t.scratch = k.scratch ∧ t.scratchPoison = k.scratchPoison

/-- Nothing but the access itself happens in the core's scratchpad: no granule is marked, no comparator is armed, no store of the
context is held, none of its operations in the array reads another core's scratchpad, no promote-acquire of it waits, and a twin's
scratchpad is the same. -/
def plainScratch (s : State) (core x : Nat) : Prop :=
  let k := s.core core
  k.scratchPoison = [] ∧ k.comps = [] ∧ (s.ctx core x).heldStores = [] ∧ k.readsRemote x = false ∧ k.promises x = false ∧ twinAlike k

/-- A piece of cached memory of the device, or of host memory, that an atomic meets in the plain way: its leaf's key is installed and its
page was written under it, its home answers, no granule of it is marked, it is no register (R388, R399, R409, R423), and the context holds
no store. -/
def plainPiece (u : State) (core x : Nat) (q : Piece) : Prop :=
  q.unc = false ∧ (∀ k, k < q.n → paReg (q.addr + k) = false) ∧ u.noKey q = false ∧ u.mixedKey q = false ∧ u.deadHome q.addr = false
    ∧ u.homeMarked q.addr = false ∧ (u.ctx core x).heldStores = [] ∧ (u.ctx core x).loops.ml.active = false

/-- The bytes that an atomic writes: in host memory for one that leaves as a PCIe atomic (R390), else at the home, under the leaf's key. -/
def atomicWrite (u : State) (q : Piece) (bs : Cells) : State :=
  if q.overLink then (u.keyPages (pteKey q.entry) bs).uncStore bs else (u.keyPages (pteKey q.entry) bs).homeStore bs

end Sys2Proof.Claims

/-- O: an LS load from the core's scratchpad (cfg 1: SPACE 01), aligned and inside it, returns the little-endian bytes at WRAP64(t + a),
extended, with latency 6 (R226, R28), and changes nothing else. -/
def Obligations.ScratchLoads : Prop :=
  ∀ (i : Instr) (p : Nat) (m : MoveHead) (n : Nat) (ext : Nat → Dw) (s : State) (core x : Nat),
    Claims.load i = some (p, m, n, ext) → s.mayTrigger core x m = true → Claims.plainScratch s core x →
    let g := s.trigger core x 4 p m
    let ea := (g.ts + g.sa).toNat
    g.cfg = 1 → ea % n = 0 → ea + n ≤ (s.core core).scratchSize →
    exec i s = .next (s.issued core x (fun c => c.gets g 6 (.s (ext (Claims.le (Memory.read (s.core core).scratch) ea n))) 0))

/-- O: an LS store to the core's scratchpad writes the low bytes of port b, least first, at WRAP64(t + a), and changes no other byte,
register or flag (R226). -/
def Obligations.ScratchStores : Prop :=
  ∀ (i : Instr) (p : Nat) (m : MoveHead) (n : Nat) (s : State) (core x : Nat),
    Claims.store i = some (p, m, n) → s.mayTrigger core x m = true → Claims.plainScratch s core x →
    let g := s.trigger core x 4 p m
    let ea := (g.ts + g.sa).toNat
    g.cfg = 1 → ea % n = 0 → ea + n ≤ (s.core core).scratchSize →
    exec i s = .next (Claims.scratchIssued s core x (fun c => c.used 4) (Claims.bytesAt ea g.sb.toNat n))

/-- O: vld, vlds, vgth, vldb and vldm in the scratchpad (R229): each element touched is the little-endian number at its address, an
element the mask leaves out is 0; latency 8, and nothing else changes. `z` is the code of ESZ and `r` the mask register of MREG. -/
def Obligations.VectorScratchLoads : Prop :=
  ∀ (i : Instr) (f : Claims.LvForm) (s : State) (core x z r : Nat),
    Claims.vload i = some f → s.mayTrigger core x f.m = true → Claims.plainScratch s core x → z < 4 → r < 16 → (f.port = 8 → z = 2) →
    let g := s.trigger core x 5 f.port f.m
    let mask := ((s.atIssue core x).ctx core x).bank.mreg r
    g.cfg = BitVec.ofNat 64 (1 + z * 2 ^ 10 + r * 2 ^ 12) → f.fits g z mask (s.core core).scratchSize →
    ∃ v : Vec,
      (∀ k, k < 512 / f.esz z → Claims.element (f.esz z) k v =
        if f.touches mask k then Claims.le (Memory.read (s.core core).scratch) (f.addr g k) (f.esz z) else 0)
      ∧ exec i s = .next (s.issued core x (fun c => c.gets g 8 (.v v) 0))

/-- O: vst, vsts, vsct and vstm in the scratchpad (R229, R230) write the elements of port b that they touch, in ascending order, and
nothing else. -/
def Obligations.VectorScratchStores : Prop :=
  ∀ (i : Instr) (f : Claims.LvForm) (s : State) (core x z r : Nat),
    Claims.vstore i = some f → s.mayTrigger core x f.m = true → Claims.plainScratch s core x → z < 4 → r < 16 → (f.port = 9 → z = 2) →
    let g := s.trigger core x 5 f.port f.m
    let mask := ((s.atIssue core x).ctx core x).bank.mreg r
    g.cfg = BitVec.ofNat 64 (1 + z * 2 ^ 10 + r * 2 ^ 12) → f.fits g z mask (s.core core).scratchSize →
    exec i s = .next (Claims.scratchIssued s core x (fun c => c.used 5)
      (((List.range (512 / f.esz z)).filter (f.touches mask)).flatMap
        (fun k => Claims.bytesAt (f.addr g k) (Claims.element (f.esz z) k g.b) (f.esz z))))

/-- O: an atomic in the scratchpad returns the old bits with latency 8. An integer one (R231, R232) writes the new bits when there are any, and
aincb that writes none raises BOUND; x and y are the low WIDTH bits of ports a and b. afadd, afmin and afmax on FP32 (32 bits), FP16 or BF16
(16 bits) write the result of the element operation, whose flags follow the old value (R231, R234). -/
def Obligations.ScratchAtomics : Prop :=
  ∀ (i : Instr) (p : Nat) (m : MoveHead) (s : State) (core x : Nat), s.mayTrigger core x m = true → Claims.plainScratch s core x →
    let g := s.trigger core x 6 p m
    let ea := g.ts.toNat
    let inside (w : Nat) : Prop := ea % (w / 8) = 0 ∧ ea + w / 8 ≤ (s.core core).scratchSize
    let old (w : Nat) : Nat := Claims.le (Memory.read (s.core core).scratch) ea (w / 8)
    (∀ (new : Nat → Nat → Nat → Nat → Option Nat) (dword : Bool), Claims.atomic i = some (p, m, new) →
      let w := if dword then 64 else 32
      let v := new w (old w) (g.sa.toNat % 2 ^ w) (g.sb.toNat % 2 ^ w)
      g.cfg = (if dword then 0x401 else 1) → inside w →
      exec i s = .next (Claims.scratchIssued s core x (fun c => Claims.oldValue (c.used 6) g 8 (old w) 0 (p == 5 && v.isNone))
        (match v with
        | some n => Claims.bytesAt ea n (w / 8)
        | none => [])))
    ∧ ∀ (new : Nat → Nat → Nat → Nat × Flags) (fmt : Nat), Claims.fpAtomic i = some (p, m, new) → fmt < 3 →
      let w := if fmt = 0 then 32 else 16
      let v := new fmt (old w) (g.sa.toNat % 2 ^ w)
      g.cfg = BitVec.ofNat 64 (1 + (if fmt = 0 then 0 else 2 * 2 ^ 10 + fmt * 2 ^ 12)) → inside w →
      exec i s = .next (Claims.scratchIssued s core x (fun c => Claims.oldValue (c.used 6) g 8 (old w) v.2 false)
        (Claims.bytesAt ea v.1 (w / 8)))

/-- O: an LS access in global memory that passes its checks (R146, R223): with what the model's translation finds, a load's result is the
extended number of the bytes that the core reads there, a store's bytes enter the core's view; then the bundle ends. An access that translation
refuses traps at its slot with the cause, its address in TADDR, and in XFSTAT the level and address of the entry that decided, and what the
access needed (R404); one whose walk meets a stack that is not ready freezes the core (R438; cause 0 is the model's own); the bundle has none
of its effects. -/
def Obligations.GlobalAccesses : Prop :=
  ∀ (i : Instr) (p : Nat) (m : MoveHead) (n : Nat) (s t : State) (core x : Nat) (q : Piece),
    s.mayTrigger core x m = true →
    let g := s.trigger core x 4 p m
    let ea := (g.ts + g.sa).toNat
    mSpace g.cfg.toNat = 0 →
    (s.passes core x g = true →
      (∀ ext : Nat → Dw, Claims.load i = some (p, m, n, ext) →
        (s.inTrigger core x 4).locate core x 0 { va := ea, n := n, align := n, kind := accRead } = .ok (t, q) →
        exec i s = .next ((t.loadResult core x g g.cfg.toNat [q]
          (.s (ext (Claims.le (fun a => t.pieceByte core x q (a - q.addr)) q.addr n)))).closes core x (s.ctx core x)))
      ∧ (Claims.store i = some (p, m, n) →
        (s.inTrigger core x 4).locate core x 0 { va := ea, n := n, align := n, kind := accWrite } = .ok (t, q) →
        exec i s = .next ((t.storeAll core x g.cfg.toNat [(q, bytesOf n g.sb.toNat)]).closes core x (s.ctx core x))))
    ∧ ∀ (k : Nat) (f : XFault), (k = 0 ∧ ∃ ext, Claims.load i = some (p, m, n, ext)) ∨ (k = 1 ∧ Claims.store i = some (p, m, n)) →
      (s.atIssue core x).trigFault core x 0 g = none → ea % n = 0 →
      (s.atIssue core x).translate ((s.atIssue core x).ctxAgent core x) k ea = .error f →
      let seen : Dw := BitVec.ofNat 64 (2 ^ 63 + f.lvl * 2 ^ 60 + f.ea % 2 ^ 52 / 8 * 8 + k)
      exec i s = .next (if f.cause = 0 then (s.settleLoops core x).freeze core .stackWait
        else (s.settleLoops core x).takeTrap core x { cause := f.cause, pos := 0, addr := some (g.ts + g.sa), xfstat := some seen })

/-- O: an integer atomic at cached global memory of the device, ORD 00 (R231): every L1 gives up the line, the old bits at the home
return with latency 32, and the new ones are written there; an operation that leaves as a PCIe atomic acts in host memory (R390). -/
def Obligations.GlobalAtomics : Prop :=
  ∀ (i : Instr) (p : Nat) (m : MoveHead) (new : Nat → Nat → Nat → Nat → Option Nat) (s t : State) (core x : Nat) (dword : Bool) (q : Piece),
    Claims.atomic i = some (p, m, new) → s.mayTrigger core x m = true →
    let g := s.trigger core x 6 p m
    let w := if dword then 64 else 32
    let u := t.ownLine (q.addr / 128)
    let old := Claims.le (if q.overLink then Memory.read u.mem else u.homeByte) q.addr (w / 8)
    let v := new w old (g.sa.toNat % 2 ^ w) (g.sb.toNat % 2 ^ w)
    g.cfg = (if dword then 0x400 else 0) → s.passes core x g = true →
    (s.inTrigger core x 6).locate core x 0 { va := g.ts.toNat, n := w / 8, align := w / 8, kind := accRmw } = .ok (t, q) →
    Claims.plainPiece u core x q →
    exec i s = .next (((match v with
        | some n => Claims.atomicWrite u q (Claims.bytesAt q.addr n (w / 8))
        | none => u).modCtx core x (fun c => Claims.oldValue c g 32 old 0 (p == 5 && v.isNone))).closes core x (s.ctx core x))

/-- O: apcas and apld (R235, R281): with no tag of another core on the value, they acquire at DEV scope and act as acas and as a load of
the old bits; with one, a promotion request for the tag's generation goes to the core that wrote it, and the result waits for the
acknowledgement with the value read. (On host memory without CXL.cache they raise PERMISSION, R390 and log entry 9.) -/
def Obligations.PromoteAcquires : Prop :=
  ∀ (m : MoveHead) (cas : Bool) (s t : State) (core x : Nat) (q : Piece), s.mayTrigger core x m = true →
    let i : Instr := if cas then .apcas m else .apld m
    let p := if cas then 18 else 19
    let g := s.trigger core x 6 p m
    let u := t.ownLine (q.addr / 128)
    let old := Claims.le u.homeByte q.addr 8
    g.cfg = 0x400 → s.passes core x g = true →
    (s.inTrigger core x 6).locate core x 0 { va := g.ts.toNat, n := 8, align := 8, kind := if cas then accRmw else accRead } = .ok (t, q) →
    q.overLink = false → Claims.plainPiece u core x q →
    (u.promoTag core q = none →
      exec i s = .next (((if cas ∧ old = g.sa.toNat then Claims.atomicWrite (u.acquire core 3) q (Claims.bytesAt q.addr g.sb.toNat 8)
        else u.acquire core 3).modCtx core x (fun c => Claims.oldValue c g 32 old 0 false)).closes core x (s.ctx core x)))
    ∧ (∀ w gen, u.promoTag core q = some (w, gen) →
      exec i s = .next (((u.modCtx core x (fun c => { c with
          asked := c.asked + 1
          flight := c.flight ++ [{ due := c.count + 32, born := c.count, unit := 7, dest := g.dest, val := some (.s 0), arrived := false
                                   promo := some c.asked }] }))
        |>.sendPromo core { ctx := x, no := (u.ctx core x).asked, target := w, gen := gen, va := q.va, pa := q.addr, width := 64
                            entry := BitVec.ofNat 64 q.entry, ad := q.ad, cas := cas, cmp := g.sa, new := g.sb, rel := none, old := old
                            since := u.time }).closes core x (s.ctx core x)))

/-- O: fence, pref, wbl, invl and vpref (R227 to R229) complete: the release and then the acquire of ORD at SCOPE; a line requested, written
back, or written back and dropped; a translation that fails drops a pref. -/
def Obligations.FencesAndLines : Prop :=
  ∀ (m : MoveHead) (s : State) (core x : Nat), s.mayTrigger core x m = true →
    let g (p : Nat) : Trig := s.trigger core x 4 p m
    let ea (p : Nat) : Nat := ((g p).ts + (g p).sa).toNat
    let r := s.inTrigger core x 4
    let ord := (g 15).cfg.toNat / 4 % 4
    let scope := (g 15).cfg.toNat / 16 % 8
    (ord ≠ 0 → scope ≤ 4 → (g 15).cfg.toNat < 128 → s.passes core x (g 15) = true →
      let a := if 2 ≤ ord then r.release core x scope none else r
      (a.ctx core x).loops.ml.active = false →
      exec (.fence m) s = .next ((if ord % 2 = 1 then a.acquire core scope else a).closes core x (s.ctx core x)))
    ∧ ((g 16).cfg = 0 → s.passes core x (g 16) = true →
      (∀ t q, r.locate core x 0 { va := ea 16, n := 1, align := 1, kind := accRead } = .ok (t, q) → q.unc = false → q.isReg = false →
        t.stackReady q.addr = true → t.deadHome q.addr = false →
        exec (.pref m) s = .next ((t.l1Fill core (q.addr / 128) (q.hint 0)).closes core x (s.ctx core x)))
      ∧ (∀ e, r.locate core x 0 { va := ea 16, n := 1, align := 1, kind := accRead } = .error e →
        exec (.pref m) s = .next (r.closes core x (s.ctx core x))))
    ∧ (∀ t q, (g 17).cfg = 0 → s.passes core x (g 17) = true →
      r.locate core x 0 { va := ea 17, n := 1, align := 1, kind := accRead } = .ok (t, q) → q.unc = false → q.isReg = false →
      exec (.wbl m) s = .next ((t.writeBackLine core (q.addr / 128)).closes core x (s.ctx core x)))
    ∧ (∀ t q, (g 18).cfg = 0 → s.passes core x (g 18) = true →
      r.locate core x 0 { va := ea 18, n := 1, align := 1, kind := accRead } = .ok (t, q) → q.unc = false → q.isReg = false →
      exec (.invl m) s = .next ((t.invalidateLine core (q.addr / 128)).closes core x (s.ctx core x)))
    ∧ (let v := s.trigger core x 5 13 m
       let b := s.inTrigger core x 5
       let at_ (k : Nat) : Nat := ((v.ts + v.sa).toNat + min (128 * k) 511) % 2 ^ 64
       v.cfg = 0 → s.passes core x v = true →
       exec (.vpref m) s = .next (([0, 1, 2, 3, 4].foldl (fun a k => a.prefLine core x 0 (at_ k)) b).closes core x (s.ctx core x)))

namespace Sys2Proof.Claims

/-- An address in the one form in which it names its place (R393: region 00 uses bits [38:0]). -/
def normal (a : Nat) : Prop := paNorm a = a

/-- The caches have room for n more lines of a core, so that nothing is replaced (R2, R263; log entries 75 and 76 on what would be). -/
def roomFor (s : State) (core n : Nat) : Prop :=
  (s.core core).l1.length + n < l1Bytes (s.core core).l1sz / 128 ∧ s.l2.length + n < 12288

/-- No other core of the cluster holds a dirty byte that the store leaves alone in an aligned unit of 8 bytes of which it writes one: such
bytes go home with the written ones, so that no access of their core is written back in part (R271). -/
def unitsFree (s : State) (core a n : Nat) : Prop :=
  ∀ j b c l, j ≠ core → cluOfCore j = cluOfCore core → b / 8 = c / 8 → a ≤ b ∧ b < a + n → ¬ (a ≤ c ∧ c < a + n) →
    (s.core j).l1Line? (c / 128) = some l → l.dirty.getLsbD (c % 128) = false

end Sys2Proof.Claims

/-- O: stores, releases and acquires. A plain store of a core at its L1 or through it (R263, R271), where nothing is replaced: the core then
reads the stored bytes at their addresses, and (where no other core of the cluster holds dirty neighbours of them) at every other address what
it read before; a granule that the store covers whole is marked no more, one that it does not cover whole keeps its mark (R411); no tag stands
at a stored byte where it was stored, in the core's line or at the home, and every other tag stays (R280). A DEV or SYS release of a core (R273, R277, R278) takes the generation GEN, leaves no line of the core
dirty with a generation up to it, the bytes that were dirty in such a line standing at their home, no log entry up to it, and DRAINED at least
there; a DEV acquire drops every clean byte of the core's L1. -/
def Obligations.StoresAndReleases : Prop :=
  (∀ (s : State) (core a hint key : Nat) (bs : List Byte) (through : Bool), s.memOk = true → s.hasKey key = true →
    (∀ k, k < bs.length → Claims.normal (a + k) ∧ s.lostHome (a + k) = false) → Claims.roomFor s core (2 * bs.length) →
    let t := s.storeBytes core { space := 0, parts := [{ bytes := cellsAt a bs, through := through, hint := hint, key := some key }] }
    let stored (b : Nat) : Prop := a ≤ b ∧ b < a + bs.length
    let whole (b : Nat) : Prop := a ≤ b / 32 * 32 ∧ b / 32 * 32 + 32 ≤ a + bs.length
    let apart : Prop := Claims.unitsFree s core a bs.length
    (∀ k, k < bs.length → t.l1Byte core (a + k) = bs.getD k 0)
    ∧ (apart → ∀ b, Claims.normal b → ¬ stored b → t.l1Byte core b = s.l1Byte core b)
    ∧ (∀ b, Claims.normal b → whole b → t.l1Marked core b = false)
    ∧ (∀ b, Claims.normal b → ¬ whole b → s.l1Marked core b = true → t.l1Marked core b = true)
    ∧ (∀ b, stored b → ∀ l, (t.core core).l1Line? (b / 128) = some l → Sp.find? l.tags (b % 128) = none)
    ∧ (∀ b, stored b → through = true → Sp.find? t.tags b = none)
    ∧ (apart → ∀ b, ¬ stored b → Sp.find? t.tags b = Sp.find? s.tags b))
  ∧ ∀ (s : State) (core x scope : Nat), scope = 3 ∨ scope = 4 →
    let g := (s.core core).gen
    let t := s.takeGen core x scope none
    let k := (s.acquire core 3).core core
    (t.core core).gen = g + 1 ∧ g ≤ (t.core core).drained
    ∧ (∀ e ∈ (t.core core).log, g < e.gen)
    ∧ (∀ line l, (t.core core).l1Line? line = some l → l.dirty = 0 ∨ g < l.gen)
    ∧ (s.memOk = true → (∀ e, e ∈ (s.core core).l1 → Claims.normal (128 * e.1)) →
        ∀ line l o, (s.core core).l1Line? line = some l → l.gen ≤ g → o < 128 → l.dirty.getLsbD o = true →
          s.lostHome (line * 128) = false → t.homeByte (line * 128 + o) = l.data.extractLsb' (8 * o) 8)
    ∧ (∀ line l, k.l1Line? line = some l → l.valid = l.dirty ∧ l.dirty ≠ 0)
    ∧ k.scratch = (s.core core).scratch ∧ (s.acquire core 3).mem = s.mem

/-- O: an access that is not aligned to its size raises ALIGNMENT at its slot with TADDR its address, before anything else of it is checked (R223, R226,
R231): LS loads and stores, and atomics. The bundle has none of its effects. -/
def Obligations.MisalignedTraps : Prop :=
  ∀ (i : Instr) (p n : Nat) (m : MoveHead) (s : State) (core x : Nat), s.mayTrigger core x m = true →
    let trap (a : Dw) : State := (s.settleLoops core x).takeTrap core x { cause := 9, pos := 0, addr := some a }
    (((∃ ext, Claims.load i = some (p, m, n, ext)) ∨ Claims.store i = some (p, m, n)) →
      let g := s.trigger core x 4 p m
      let ea := g.ts + g.sa
      g.cfg.toNat < 3 → ea.toNat % n ≠ 0 → exec i s = .next (trap ea))
    ∧ (∀ new, Claims.atomic i = some (p, m, new) →
      let g := s.trigger core x 6 p m
      g.cfg.toNat < 3 → g.ts.toNat % 4 ≠ 0 → exec i s = .next (trap g.ts))

/-- O: a load from a poisoned granule of the scratchpad completes and marks its result with the address; a move that reads a marked
register raises POISON at its slot with that address in TADDR, unless its guard drops it (R120, R410). -/
def Obligations.PoisonedLoads : Prop :=
  (∀ (m : MoveHead) (s : State) (core x : Nat), s.mayTrigger core x m = true → (s.ctx core x).heldStores = [] →
    let g := s.trigger core x 4 10 m
    let ea := (g.ts + g.sa).toNat
    g.cfg = 1 → ea % 8 = 0 → ea + 8 ≤ (s.core core).scratchSize → (s.core core).scratchPoison.contains (ea / 32) = true →
    (s.core core).promises x = false → Claims.twinAlike (s.core core) →
    exec (.ldd m) s = .next (s.issued core x (fun c => { c.used 4 with
      flight := c.flight ++ [{ due := c.count + 6, born := c.count, unit := 5, dest := g.dest
                               val := some (.s (BitVec.ofNat 64 (Claims.le (Memory.read (s.core core).scratch) ea 8)))
                               mark := some (BitVec.ofNat 64 ea) }] })))
  ∧ ∀ (m : PlainHead) (d : BitVec 8) (s : State) (core x : Nat) (a : Dw), m.ok = true → isReg d.toNat = true → s.free core x = true →
    m.grd = 0 → m.inv = 0 → ((s.atIssue core x).readSrc core x 0 0 m.src.toNat).mark = some a →
    (encodePlain m d.toNat ≠ 0) →
    exec (.registerMove m d) s = .next ((s.settleLoops core x).takeTrap core x { cause := 10, pos := 0, addr := some a })
namespace Sys2Proof.Claims

/-! ### Address translation -/

/-- Bits [hi:lo] of a number. -/
def bits (v hi lo : Nat) : Nat := v / 2 ^ lo % 2 ^ (hi + 1 - lo)

/-- The address of the entry that a walk from a root reads at a level, through the entries above it (R401). -/
def entryAt (s : State) (root va : Nat) : Nat → Nat
  | 0 => root + 8 * bits va 56 48
  | n + 1 => bits (s.homeDw (entryAt s root va n)) 49 10 * 4096 + 8 * bits va (47 - 9 * n) (39 - 9 * n)

/-- A valid entry is a table entry when R, W and X are 0 (R394). -/
def isTable (e : Nat) : Prop := e % 2 = 1 ∧ bits e 3 1 = 0

/-- The rows of R395, at a level; `va` gives the entry's index. -/
def reserved (lvl va e : Nat) : Prop :=
  if bits e 3 1 = 0 then lvl = 4 ∨ bits e 63 50 ≠ 0 ∨ bits e 9 4 ≠ 0
  else lvl ≤ 1 ∨ bits e 2 1 = 2 ∨ (bits e 7 7 = 1 ∧ lvl ≠ 4) ∨ (lvl = 2 ∧ bits e 27 10 ≠ 0) ∨ (lvl = 3 ∧ bits e 18 10 ≠ 0)
    ∨ (lvl = 4 ∧ bits e 7 7 = 1 ∧ bits e 13 10 ≠ bits va 15 12)
    ∨ bits e 43 42 = 3 ∨ (bits e 55 50 ≠ 0 ∧ bits e 43 42 ≠ 0) ∨ (bits e 43 42 = 2 ∧ bits e 9 8 ≠ 2)

/-- The entry at an address can be read: its granule is not poisoned (R410) and its home answers (R423). -/
def readable (s : State) (ea : Nat) : Prop := s.homeMarked ea = false ∧ s.deadHome ea = false

/-- Down to a level, the walk meets table entries only, on stacks that are ready. -/
def reaches (s : State) (root va lvl : Nat) : Prop :=
  ∀ j, j < lvl → s.stackReady (entryAt s root va j) = true ∧ readable s (entryAt s root va j) ∧ isTable (s.homeDw (entryAt s root va j))
    ∧ ¬ reserved j va (s.homeDw (entryAt s root va j))

/-- What an access of kind 0 read, 1 write, 2 read-modify-write or 3 fetch needs of its leaf (R397). -/
def given (k e : Nat) : Prop := if k = 0 then bits e 1 1 = 1 else if k = 3 then bits e 3 3 = 1 else bits e 2 2 = 1

/-- The bytes that a leaf maps (R394, R396). -/
def leafBytes (lvl e : Nat) : Nat :=
  if lvl = 2 then 2 ^ 30 else if lvl = 3 then 2 ^ 21 else if bits e 7 7 = 1 then 2 ^ 16 else 2 ^ 12

/-- Where A and D of a leaf are kept: in the first entry of a group (R403). -/
def adPlace (lvl e ea : Nat) : Nat := if lvl = 4 ∧ bits e 7 7 = 1 then ea / 128 * 128 + ea % 8 else ea

end Sys2Proof.Claims

/-- O: a translation that no cache supplies (R392, R401 to R403). An address whose bits [63:57] do not all equal bit 56 raises TRANSLATION
at level 7. Else the entries are read from the root down: one on a stack that is not ready is awaited (R438; cause 0 is the model's own); an
entry that is not valid, or that cannot be read, raises TRANSLATION (5) at its
level, one that breaks a row of R395 RESERVED_BIT (8); a leaf of another owner raises OWNER (7), one that the privilege or the access's need
forbids PERMISSION (6), one whose home is no member of the domain TRANSLATION, in this order, and nothing is written. A leaf that passes gives
the address; A, and for an access that needs W also D, are set in the leaf, or in the first entry of its group, and no other bit of it changes.
The leaf stays in the core's translation cache, which then gives the same address without a walk (R405), to the same owner only. -/
def Obligations.AddressTranslation : Prop :=
  ∀ (s : State) (ag : Agent) (k va : Nat), k < 4 → va < 2 ^ 64 → s.tlb = [] → s.walks = [] →
    (Claims.bits va 63 56 ≠ 0 → Claims.bits va 63 56 ≠ 255 → s.translate ag k va = .error ⟨5, 7, 0⟩)
    ∧ (Claims.bits va 63 56 = 0 ∨ Claims.bits va 63 56 = 255 →
      ∀ lvl, lvl ≤ 4 → Claims.reaches s ag.root va lvl →
        let ea := Claims.entryAt s ag.root va lvl
        let e := s.homeDw ea
        let bad (c : Nat) : Prop := s.translate ag k va = .error ⟨c, lvl, ea⟩
        let mine : Prop := Claims.bits e 63 56 = 0 ∨ Claims.bits e 63 56 = ag.owner.toNat
        let open_ : Prop := (ag.priv = true ∨ Claims.bits e 4 4 = 1) ∧ Claims.given k e
        (s.stackReady ea = false → s.translate ag k va = .error ⟨0, lvl, ea⟩)
        ∧ (s.stackReady ea = true →
        (e % 2 = 0 ∨ ¬ Claims.readable s ea → bad 5)
        ∧ (e % 2 = 1 → Claims.readable s ea → Claims.reserved lvl va e → bad 8)
        ∧ (e % 2 = 1 → Claims.readable s ea → ¬ Claims.reserved lvl va e → Claims.bits e 3 1 ≠ 0 →
          (¬ mine → bad 7) ∧ (mine → ¬ open_ → bad 6)
          ∧ (mine → open_ → s.domain.getLsbD (Claims.bits e 49 44) = false → bad 5)
          ∧ (mine → open_ → s.domain.getLsbD (Claims.bits e 49 44) = true →
            ∃ t q, s.translate ag k va = .ok (t, q)
              ∧ q.pa = paNorm (Claims.bits e 49 10 * 4096 / Claims.leafBytes lvl e * Claims.leafBytes lvl e + va % Claims.leafBytes lvl e)
              ∧ q.size = Claims.leafBytes lvl e ∧ Claims.bits q.entry 63 7 = Claims.bits e 63 7 ∧ q.entry % 32 = e % 32
              ∧ t.cores = s.cores ∧ t.launches = s.launches ∧ t.dies = s.dies
              ∧ (ag.core = none → t.tlb = [] ∧ t.walks = [])
              ∧ (ag.core ≠ none → t.translate ag k va = .ok (t, q)
                ∧ ∀ o, o ≠ ag.owner → (t.tlb.filter (fun x => x.owner == o)) = [])
              ∧ (let a := Claims.adPlace lvl e ea
                 s.memOk = true → isHbm a = true → Claims.normal a → a % 8 = 0 → s.l2.length < 12288 →
                 let old := s.homeDw a
                 Claims.bits (t.homeDw a) 5 5 = 1 ∧ (k = 1 ∨ k = 2 → Claims.bits (t.homeDw a) 6 6 = 1)
                 ∧ (k = 0 ∨ k = 3 → Claims.bits (t.homeDw a) 6 6 = Claims.bits old 6 6)
                 ∧ t.homeDw a % 32 = old % 32 ∧ t.homeDw a / 128 = old / 128
                 ∧ ∀ b, b / 8 ≠ a / 8 → isHbm b = true → Claims.normal b → t.homeByte b = s.homeByte b)))))


namespace Sys2Proof.Claims

/-! ### Vectors -/

/-- The element width of a format (R157). -/
def width (f : Nat) : Nat := if f = 0 ∨ f = 10 ∨ f = 11 then 32 else if f = 1 ∨ f = 2 ∨ f = 8 ∨ f = 9 then 16 else if f = 5 then 4 else 8
/-- Element i of width w (R157). -/
def el (w i : Nat) (v : Vec) : Nat := v.toNat / 2 ^ (w * i) % 2 ^ w
/-- INT8, INT16 and INT32. -/
def signed (f : Nat) : Bool := f = 6 ∨ f = 8 ∨ f = 10
/-- The integer that a code of an integer format stands for. -/
def num (f c : Nat) : Int := if signed f then (BitVec.ofNat (width f) c).toInt else (c : Int)
/-- An exact integer in an integer format: wrapped, or clamped when SAT is 1 (R166). -/
def inFmt (f : Nat) (sat : Bool) (v : Int) : Nat :=
  let lo : Int := if signed f then -(2 ^ (width f - 1)) else 0
  let hi : Int := if signed f then 2 ^ (width f - 1) - 1 else 2 ^ width f - 1
  ((if sat then max lo (min hi v) else v) % 2 ^ width f).toNat

/-- The integer operations of R166 to R168, R169 and R175 on element codes t, a and b of format f. -/
def intOp (p f : Nat) (sat : Bool) (t a b : Nat) : Option Nat :=
  let w := width f
  let n := num f
  match p with
  | 4 => some (inFmt f sat (n t + n a))
  | 5 => some (inFmt f sat (n t - n a))
  | 6 => some (inFmt f sat (n t * n a))
  | 7 => some (inFmt f sat (n a * n b + n t))
  | 8 => some (inFmt f sat (n a * n b - n t))
  | 9 => some (if n t < n a then t else a)
  | 10 => some (if n t < n a then a else t)
  | 11 => some (if signed f then inFmt f sat (if n t < 0 then -n t else n t) else t)
  | 12 => some (inFmt f sat (-n t))
  | 22 => some (if w ≤ a then 0 else t * 2 ^ a % 2 ^ w)
  | 23 => some (if w ≤ a then 0 else t / 2 ^ a)
  | 24 => some ((BitVec.ofInt w ((BitVec.ofNat w t).toInt / (2 ^ min a w : Nat))).toNat)
  | 26 => some (let y := if n t < n a then a else t; if n b < n y then b else y)
  | 27 => some t
  | _ => none

/-- The exponent and fraction bits of FP32, FP16 and BF16 (R65). -/
def fracBits (f : Nat) : Nat := if f = 0 then 23 else if f = 1 then 10 else 7
/-- A code of FP32, FP16 or BF16 is a NaN, and a signalling one. -/
def nanCode (f c : Nat) : Bool := 2 ^ (width f - 1) - 2 ^ fracBits f < c % 2 ^ (width f - 1)
def signalling (f c : Nat) : Bool := nanCode f c && c / 2 ^ (fracBits f - 1) % 2 = 0
/-- QNAN of FP32, FP16 and BF16 (R78). -/
def quiet (f : Nat) : Nat := if f = 0 then 0x7FC00000 else if f = 1 then 0x7E00 else 0x7FC0

/-- The codes of ∞, 1.0 and 0.5, and the sign bit, in FP32, FP16 and BF16 (R65). -/
def infCode (f : Nat) : Nat := 2 ^ (width f - 1) - 2 ^ fracBits f
def oneCode (f : Nat) : Nat := if f = 0 then 0x3F800000 else if f = 1 then 0x3C00 else 0x3F80
def halfCode (f : Nat) : Nat := if f = 0 then 0x3F000000 else if f = 1 then 0x3800 else 0x3F00
def signBit (f : Nat) : Nat := 2 ^ (width f - 1)

/-- What VF delivers for −∞, −0, +0 and +∞ (R181): the codes and flags NV (16) and DZ (8). -/
def vfTable (p f : Nat) : List (Nat × Nat × Flags) :=
  let i := infCode f; let z := signBit f; let m := z + i; let nan := quiet f; let one := oneCode f
  match p with
  | 4 => [(m, nan, 16), (z, m, 8), (0, i, 8), (i, 0, 0)]
  | 5 => [(m, z, 0), (z, m, 8), (0, i, 8), (i, 0, 0)]
  | 6 => [(m, nan, 16), (z, z, 0), (0, 0, 0), (i, i, 0)]
  | 7 => [(m, 0, 0), (z, one, 0), (0, one, 0), (i, i, 0)]
  | 8 => [(m, nan, 16), (z, m, 8), (0, m, 8), (i, i, 0)]
  | 9 => [(m, 0, 0), (z, one, 0), (0, one, 0), (i, i, 0)]
  | 10 => [(m, z + one, 0), (z, z, 0), (0, 0, 0), (i, one, 0)]
  | 11 => [(m, 0, 0), (z, halfCode f, 0), (0, halfCode f, 0), (i, one, 0)]
  | 12 => [(m, z, 0), (z, z, 0), (0, 0, 0), (i, i, 0)]
  | _ => []

/-- The elements and the segment length of VX (R182). -/
def count (f : Nat) : Nat := 4096 / width f
def segLen (f seg : Nat) : Nat := if seg = 0 then count f else 2 ^ seg

/-- The number of one bits of x below bit n. -/
def onesBelow (x : Nat) : Nat → Nat
  | 0 => 0
  | n + 1 => onesBelow x n + x / 2 ^ n % 2

end Sys2Proof.Claims

/-- O: every VA trigger with a legal cfg completes (R163 to R179): its vector or mask and its flags are on their way with latency 3, or 5
for mul, fma and fms (R28), and RSTCTR advances by one exactly when the operation reads RM and RM is RST (R164). Nothing else changes. -/
def Obligations.VectorUnit : Prop :=
  ∀ (i : Instr) (u p : Nat) (m : MoveHead) (s : State) (core x : Nat), Claims.trig i = some (u, p, m) → u = 7 ∨ u = 8 →
    s.mayTrigger core x m = true →
    let g := s.trigger core x u p m
    let cfg := g.cfg.toNat
    vaIllegal p cfg = false →
    exec i s = .next (s.issued core x (fun c =>
      let v := vaResult p cfg { seed := c.sys.rstSeed.toNat, ctx := x, ctr := c.sys.rstCtr.toNat } g.tv g.a g.b
      let d := c.gets g (if 6 ≤ p ∧ p ≤ 8 then 5 else 3) v.1 v.2
      if (p < 9 ∨ p = 18 ∨ p = 25 ∨ (27 ≤ p ∧ p ≤ 29)) ∧ cfg / 2 ^ 8 % 8 = 4 then
        { d with sys := { d.sys with rstCtr := d.sys.rstCtr + 1 } }
      else d))

/-- O: VA on integer formats, element by element (R166 to R170, R172, R175): exact integers wrapped or clamped, shifts by counts of any
size, numeric compares into the mask window of PART; sel takes the elements of a whose mask bit is 1 (R173); the bitwise operations and
mov act on all 4,096 bits (R174). No flag is raised. -/
def Obligations.VectorElements : Prop :=
  ∀ (f dst cfg : Nat) (r : Rst) (t a b : Vec), 6 ≤ f → f ≤ 11 → cfg % 16 = f →
    let w := Claims.width f
    let part := cfg / 2 ^ 12 % 8
    (∀ p i, i < 4096 / w → ∀ y, Claims.intOp p f (cfg / 2 ^ 11 % 2 = 1) (Claims.el w i t) (Claims.el w i a) (Claims.el w i b) = some y →
      Claims.el w i (vaResult p cfg r t a b).1.toV = y ∧ (vaResult p cfg r t a b).2 = 0)
    ∧ (part < 32 / w → ∀ j, j < 128 →
        let x := Claims.num f (Claims.el w (part * 128 + j) t)
        let y := Claims.num f (Claims.el w (part * 128 + j) a)
        (vaResult 13 cfg r t a b).1.toM.getLsbD j = decide (x = y) ∧ (vaResult 14 cfg r t a b).1.toM.getLsbD j = decide (x < y)
        ∧ (vaResult 15 cfg r t a b).1.toM.getLsbD j = decide (x ≤ y) ∧ (vaResult 16 cfg r t a b).1.toM.getLsbD j = false)
    ∧ (part < 32 / w → ∀ i, i < 4096 / w →
        Claims.el w i (vaResult 17 cfg r t a b).1.toV =
          if part * 128 ≤ i ∧ i < part * 128 + 128 ∧ b.getLsbD (i - part * 128) then Claims.el w i a else Claims.el w i t)
    ∧ vaResult 19 dst r t a b = (.v (t &&& a), 0) ∧ vaResult 20 dst r t a b = (.v (t ||| a), 0)
    ∧ vaResult 21 dst r t a b = (.v (t ^^^ a), 0) ∧ vaResult 30 dst r t a b = (.v t, 0)

/-- O: NaNs and signs in FP32, FP16 and BF16: abs and neg keep every bit but the sign and raise no flag (R168); arithmetic, clmp, rnd and
scl of a NaN deliver QNAN (R165, R169 to R171); min and max of one NaN deliver the other code unchanged, of two QNAN (R167); a compare
with a NaN is false and cun is true (R172). -/
def Obligations.FloatNaNs : Prop :=
  ∀ (f cfg i : Nat) (r : Rst) (t a b : Vec), f < 3 → cfg % 16 = f →
    let w := Claims.width f
    let x := Claims.el w i t
    let y := Claims.el w i a
    let part := cfg / 2 ^ 12 % 8
    let out (p : Nat) : Nat := Claims.el w i (vaResult p cfg r t a b).1.toV
    i < 4096 / w →
    (out 11 = x % 2 ^ (w - 1) ∧ out 12 = (x + 2 ^ (w - 1)) % 2 ^ w ∧ (vaResult 11 cfg r t a b).2 = 0 ∧ (vaResult 12 cfg r t a b).2 = 0)
    ∧ (Claims.nanCode f x = true → out 4 = Claims.quiet f ∧ out 5 = Claims.quiet f ∧ out 6 = Claims.quiet f ∧ out 7 = Claims.quiet f
        ∧ out 8 = Claims.quiet f ∧ out 25 = Claims.quiet f ∧ out 26 = Claims.quiet f ∧ out 27 = Claims.quiet f)
    ∧ (Claims.nanCode f y = true → out 4 = Claims.quiet f ∧ out 5 = Claims.quiet f ∧ out 6 = Claims.quiet f ∧ out 7 = Claims.quiet f
        ∧ out 8 = Claims.quiet f)
    ∧ (Claims.nanCode f x = true → Claims.nanCode f y = false → out 9 = y ∧ out 10 = y)
    ∧ (Claims.nanCode f x = false → Claims.nanCode f y = true → out 9 = x ∧ out 10 = x)
    ∧ (Claims.nanCode f x = true → Claims.nanCode f y = true → out 9 = Claims.quiet f ∧ out 10 = Claims.quiet f)
    ∧ (part < 32 / w → part * 128 ≤ i → i < part * 128 + 128 →
        let bit (p : Nat) : Bool := (vaResult p cfg r t a b).1.toM.getLsbD (i - part * 128)
        bit 16 = (Claims.nanCode f x || Claims.nanCode f y)
        ∧ (Claims.nanCode f x = true ∨ Claims.nanCode f y = true → bit 13 = false ∧ bit 14 = false ∧ bit 15 = false))

/-- O: every VF trigger with FMT FP32, FP16 or BF16 completes with latency 12, whatever ports a and b hold (R180); it works element by
element, and its flags are those that an element raises; the special operands deliver the codes and flags of R181: −∞, −0, +0 and +∞, the finite numbers below zero for rsq, sqrt and log2, and a NaN, which
delivers QNAN, with NV when it is signalling. -/
def Obligations.SpecialFunctions : Prop :=
  (∀ (i : Instr) (p : Nat) (m : MoveHead) (s : State) (core x : Nat), Claims.trig i = some (9, p, m) → s.mayTrigger core x m = true →
    let g := s.trigger core x 9 p m
    g.cfg.toNat < 3 →
    exec i s = .next (s.issued core x (fun c =>
      let v := vfResult p g.cfg.toNat g.tv.toNat
      c.gets g 12 (.v (BitVec.ofNat 4096 v.1)) v.2)))
  ∧ (∀ (p f : Nat) (t : Vec), 4 ≤ p → p ≤ 12 → f < 3 →
      let v := vfResult p f t.toNat
      let r (i : Nat) : Nat × Flags := vfElem p f (Claims.el (Claims.width f) i t)
      (∀ i, i < 4096 / Claims.width f → Claims.el (Claims.width f) i (BitVec.ofNat 4096 v.1) = (r i).1 ∧ (r i).2 &&& v.2 = (r i).2)
      ∧ ∀ b : Nat, v.2.getLsbD b = true → ∃ i, i < 4096 / Claims.width f ∧ (r i).2.getLsbD b = true)
  ∧ (∀ p f, 4 ≤ p → p ≤ 12 → f < 3 → ∀ e ∈ Claims.vfTable p f, vfElem p f e.1 = (e.2.1, e.2.2))
  ∧ (∀ p f c, p = 4 ∨ p = 6 ∨ p = 8 → f < 3 → 0 < c → c < Claims.infCode f → vfElem p f (Claims.signBit f + c) = (Claims.quiet f, 16))
  ∧ (∀ p f c, 4 ≤ p → p ≤ 12 → f < 3 → c < 2 ^ Claims.width f → Claims.nanCode f c = true →
      vfElem p f c = (Claims.quiet f, if Claims.signalling f c then 16 else 0))

/-- O: every VX trigger with a legal cfg completes with its flags, latency 8 for rsum, rmax, rmin and scan and 4 for the others (R183). -/
def Obligations.CrossLane : Prop :=
  ∀ (i : Instr) (p : Nat) (m : MoveHead) (s : State) (core x : Nat), Claims.trig i = some (10, p, m) → s.mayTrigger core x m = true →
    let g := s.trigger core x 10 p m
    vxIllegal p g.cfg.toNat = false →
    exec i s = .next (s.issued core x (fun c =>
      let v := vxResult p g.cfg.toNat g.t g.sa g.b
      c.gets g (if p < 7 ∨ p = 11 then 8 else 4) v.1 v.2))

/-- O: the elements that VX moves (R187 to R191): bcst, rot, perm, gxch, cmpr, expd, popm, ffs, vtos and stov. -/
def Obligations.CrossLaneElements : Prop :=
  ∀ (f seg i : Nat) (t : Vec) (x a : Dw) (b : Vec), f < 13 → f ≠ 5 → seg < 16 → Claims.segLen f seg ≤ Claims.count f → i < Claims.count f →
    let w := Claims.width f
    let n := Claims.count f
    let l := Claims.segLen f seg
    let cfg := f + 16 * seg
    let base := i / l * l
    let out (p : Nat) : Nat := Claims.el w i (vxResult p cfg (.v t) a b).1.toV
    out 7 = Claims.el w (base + a.toNat % l) t
    ∧ out 10 = Claims.el w (base + (i - base + a.toNat) % l) t
    ∧ out 8 = Claims.el w (Claims.el w i b % n) t
    ∧ (∀ g, g < 8 → Claims.el 512 g (vxResult 9 cfg (.v t) a b).1.toV = Claims.el 512 (a.toNat / 2 ^ (3 * g) % 8) t)
    ∧ (b.getLsbD i = true → Claims.el w (Claims.onesBelow b.toNat i) (vxResult 12 cfg (.v t) a b).1.toV = Claims.el w i t)
    ∧ (Claims.onesBelow b.toNat n ≤ i → out 12 = 0)
    ∧ out 13 = (if b.getLsbD i then Claims.el w (Claims.onesBelow b.toNat i) t else 0)
    ∧ (vxResult 14 cfg (.v t) a b).1 = .s (BitVec.ofNat 64 (Claims.onesBelow t.toNat n))
    ∧ (∀ k : Nat, k < n → t.getLsbD k = true → (∀ j, j < k → t.getLsbD j = false) → (vxResult 15 cfg (.v t) a b).1 = .s (BitVec.ofNat 64 k))
    ∧ ((∀ j, j < n → t.getLsbD j = false) → (vxResult 15 cfg (.v t) a b).1 = .s (BitVec.ofNat 64 n))
    ∧ (vxResult 16 cfg (.v t) a b).1 = .s (if Claims.signed f then (BitVec.ofNat w (Claims.el w (a.toNat % n) t)).signExtend 64
        else BitVec.ofNat 64 (Claims.el w (a.toNat % n) t))
    ∧ Claims.el w i (vxResult 17 cfg (.s x) a b).1.toV = (if i = a.toNat % n then x.toNat % 2 ^ w else Claims.el w i b)

namespace Sys2Proof.Claims

/-- A row of the stream accumulator is in canonical form: its sums are in range and no element is listed as zero. -/
def rowOk (r : SaRow) : Prop :=
  Sp.wf (0 : Int) r.elems = true ∧ -(2 ^ 71) ≤ r.t ∧ r.t < 2 ^ 71 ∧ r.sq < 2 ^ 96

/-- The 40-bit element range of R240. -/
def inRange40 (v : Int) : Prop := -(2 ^ 39) ≤ v ∧ v < 2 ^ 39

end Sys2Proof.Claims

/-- O: each SA trigger whose cfg and operands pass their checks (R236, R237, R239) completes: sadd and saddc make their element steps on
the segment the handle names, shdr sets a header, sclr clears, sevt writes an image and clears, sldr loads one, srdn and sstt put a
result on its way; then the bundle ends. What reaches a tidelocked pair reaches both twins' stores, each computing from its own (`modSaRow`,
`bothTwins`, R45, R319). -/
def Obligations.StreamAccumulatorUnit : Prop :=
  ∀ (m : MoveHead) (s : State) (core x : Nat), s.mayTrigger core x m = true →
    let g (p : Nat) : Trig := s.trigger core x 11 p m
    let r := s.inTrigger core x 11
    let row (h : Dw) : Nat := h.toNat % 256
    let dst (h : Dw) : Nat := (r.peerCore core (h.toNat / 2 ^ 8 % 16)).getD core
    let done (t : State) : Res := .next (t.closes core x (s.ctx core x))
    (s.passes core x (g 4) = true →
      exec (.sadd m) s = done (r.saAdd core (dst (g 4).sa) (row (g 4).sa) ((g 4).sa.toNat / 2 ^ 16 % 2 ^ 12) false (saddElems (g 4))))
    ∧ (s.passes core x (g 5) = true →
      exec (.saddc m) s = done (r.bothTwins core (fun r => r.saAdd core (dst (g 5).sa) (row (g 5).sa)
        ((g 5).sa.toNat / 2 ^ 16 % 2 ^ 12) (r.saddcMarked core (g 5)) (r.saddcElems core x (g 5)))))
    ∧ (s.passes core x (g 6) = true → exec (.srdn m) s = done (r.srdn core x (g 6)))
    ∧ (s.passes core x (g 7) = true → r.saSteps = [] →
      exec (.shdr m) s = done (r.modSaRow (dst (g 7).sa) (row (g 7).sa) (fun _ =>
        { header := (g 7).ts, valid := (r.core (dst (g 7).sa)).headerOk (row (g 7).sa) (g 7).ts.toNat
          err := !((r.core (dst (g 7).sa)).headerOk (row (g 7).sa) (g 7).ts.toNat) })))
    ∧ (s.passes core x (g 8) = true → r.saSteps = [] →
      exec (.sclr m) s = done (r.modSaRow (dst (g 8).ts) (row (g 8).ts) (fun a => { header := a.header, valid := a.valid })))
    ∧ (s.passes core x (g 9) = true → ((r.sevt core x (row (g 9).ts) (g 9).sa.toNat (g 9).cfg.toNat).ctx core x).loops.ml.active = false →
      exec (.sevt m) s = done (r.sevt core x (row (g 9).ts) (g 9).sa.toNat (g 9).cfg.toNat))
    ∧ (s.passes core x (g 10) = true → exec (.sldr m) s = done (r.sldr core x (row (g 10).ts) (g 10).sa.toNat (g 10).cfg.toNat))
    ∧ (s.passes core x (g 11) = true → exec (.sstt m) s = done (r.sstt core x (g 11)))

/-- O: the element step of an add (R240): a valid row's element in LEN takes x + q clamped to 40 bits, T moves by the difference and S by
the difference of the squares, SATF and NANF only rise; an element outside LEN, or a row that is not valid, sets ERR and changes nothing
else. Adds commute whenever none of them saturates: a row that receives two of them holds the same bits in either order (R241). -/
def Obligations.ElementStep : Prop :=
  (∀ (r : SaRow) (e : Nat) (q : Int) (sat nan : Bool), Claims.rowOk r → Claims.inRange40 (Sp.get 0 r.elems e) → Claims.inRange40 q →
    let t := r.step e q sat nan
    let x := Sp.get 0 r.elems e
    let y := max (-(2 ^ 39)) (min (2 ^ 39 - 1) (x + q))
    if r.valid = true ∧ e < r.header.toNat % 2 ^ 13 then
      Sp.get 0 t.elems e = y ∧ (∀ k, k ≠ e → Sp.get 0 t.elems k = Sp.get 0 r.elems k)
      ∧ (t.t - r.t - (y - x)) % 2 ^ 72 = 0 ∧ ((t.sq : Int) - r.sq - (y * y - x * x)) % 2 ^ 96 = 0
      ∧ t.satf = (r.satf || sat || decide (y ≠ x + q)) ∧ t.nanf = (r.nanf || nan)
      ∧ t.header = r.header ∧ t.valid = r.valid ∧ t.err = r.err ∧ t.poison = r.poison
    else t = { r with err := true })
  ∧ ∀ (r : SaRow) (e f : Nat) (p q : Int) (sp sq np nq : Bool), Claims.rowOk r → (∀ k, Claims.inRange40 (Sp.get 0 r.elems k)) →
    Claims.inRange40 p → Claims.inRange40 q →
    Claims.inRange40 (Sp.get 0 r.elems e + p) → Claims.inRange40 (Sp.get 0 r.elems f + q) →
    (e = f → Claims.inRange40 (Sp.get 0 r.elems e + p + q)) →
    (r.step e p sp np).step f q sq nq = (r.step f q sq nq).step e p sp np

namespace Sys2Proof.Claims

/-! ### The slots of the matrix and the engine -/

/-- A queue takes a nop behind what it holds, and none when it is empty (R112, R114). -/
def mnop (k : Core) (x : Nat) : List MEnt := if k.mq = [] then [] else k.mq ++ [{ ctx := x, op := 0, cyc := k.now }]
def enop (k : Core) (x : Nat) : List EEnt := if k.eq = [] then [] else k.eq ++ [{ ctx := x, op := 0, cyc := k.now }]

/-- The declared beats of a slot-6 word (R112): field [7:0] plus 1 for mma, mmaz, mmar, mmap, accrd, accwr and pldef. -/
def matBeats (w : Nat) : Nat := if (2 ≤ w / 2 ^ 19 ∧ w / 2 ^ 19 ≤ 7) ∨ w / 2 ^ 19 = 9 then w % 256 + 1 else 1
/-- The declared beats of a slot-7 word with its immediate (R115). -/
def engBeats (w : Nat) : Nat :=
  let op := w / 2 ^ 19
  if (1 ≤ op ∧ op ≤ 5) ∨ op = 7 ∨ op = 8 ∨ op = 16 ∨ op = 17 then w % 256 + 1 else 1

/-- The registers that a repeat prefix moves when slot 6 uses it (R139): both increments into one register when A and B are the same. -/
def movedRegs (c : Ctx) (w : Nat) (p : Rept) : List (Nat × Dw) :=
  let a := w / 2 ^ 12 % 16
  let b := w / 2 ^ 8 % 16
  let r : Dw := BitVec.ofNat 64 p.r
  if a = b then [(a, c.bank.areg a + (r * p.sA + r * p.sB))]
  else [(a, c.bank.areg a + r * p.sA), (b, c.bank.areg b + r * p.sB)]

/-- The classes of R196: 0 16-bit, 1 8-bit float, 2 4-bit, 3 8-bit integer; and the elements of a beat. -/
def mclass (f : Nat) : Option Nat :=
  if f = 1 ∨ f = 2 then some 0 else if f = 3 ∨ f = 4 then some 1 else if f = 5 then some 2 else if f = 6 ∨ f = 7 then some 3 else none
def perBeat (f : Nat) : Nat := if f = 1 ∨ f = 2 then 24 else if f = 5 then 96 else 48

/-- A configuration value that R195 and R196 allow. -/
def configOk (v : Nat) : Prop :=
  v / 2 ^ 48 = 0 ∧ mclass (v % 16) ≠ none ∧ mclass (v / 16 % 16) = mclass (v % 16)
    ∧ (v / 2 ^ 8 % 2 = 1 ∨ v / 2 ^ 9 % 2 = 1 → mclass (v % 16) = some 1 ∨ mclass (v % 16) = some 2)

/-- An operand address in the layout of R193, aligned for its use, whose extent lies inside the scratchpad it names (R194). -/
def operandOk (s : State) (core align extent : Nat) (remote : Bool) (v : Dw) : Prop :=
  let a := v.toNat
  a / 2 ^ 29 = 0 ∧ a / 2 ^ 20 % 16 = 0 ∧ a % 2 ^ 20 % align = 0
    ∧ (a / 2 ^ 28 % 2 = 0 → a / 2 ^ 24 % 16 = 0 ∧ a % 2 ^ 20 + extent ≤ (s.core core).scratchSize)
    ∧ (a / 2 ^ 28 % 2 = 1 → remote = true ∧ ∃ c, s.peerCore core (a / 2 ^ 24 % 16) = some c ∧ a % 2 ^ 20 + extent ≤ (s.core c).scratchSize)

/-- The bytes of a panel of n beats in format f, with its scale bytes (R194). -/
def panelBytes (n f : Nat) (scaled : Bool) : Nat := n * 768 + if scaled then 16 * (n * perBeat f / 32) else 0

/-- Slot 6 passes the checks of R216: it comes late enough after the last dispatch (R42), a repeat prefix stands before a
multiplication, mcfg's value and the operands of every repetition are good, and no register it reads is marked. -/
def matReady (s : State) (core x w : Nat) : Prop :=
  let r := s.atIssue core x
  let c := r.ctx core x
  let op := w / 2 ^ 19
  let n := matBeats w
  let cfg := c.mcfg.toNat
  let ra := w / 2 ^ 12 % 16
  let rb := w / 2 ^ 8 % 16
  let mul := 2 ≤ op ∧ op ≤ 5
  let at_ (v sa : Dw) (k : Nat) : Dw := v + BitVec.ofNat 64 k * sa
  let reps := (c.rept.map (·.r)).getD 1
  let sA := (c.rept.map (·.sA)).getD 0
  let sB := (c.rept.map (·.sB)).getD 0
  let scA := cfg / 2 ^ 8 % 2 = 1
  let scB := cfg / 2 ^ 9 % 2 = 1
  (∀ e, c.recM = some e → e.1 + 2 * e.2 ≤ c.count)
    ∧ (mul ∨ op = 1 ∨ op = 6 ∨ op = 7 ∨ op = 9 → c.bank.mark (0x90 + ra) = none) ∧ (mul → c.bank.mark (0x90 + rb) = none)
    ∧ (c.rept = none ∨ mul) ∧ (op = 1 → configOk (c.bank.areg ra).toNat)
    ∧ (mul → mclass (cfg % 16) = some 1 → (scA ∨ (scB ∧ op ≠ 5)) → n % 2 = 0)
    ∧ (mul → ∀ k, k < reps → operandOk r core 16 (panelBytes n (cfg % 16) (decide scA)) true (at_ (c.bank.areg ra) sA k))
    ∧ (mul → op ≠ 5 → ∀ k, k < reps → operandOk r core 16 (panelBytes n (cfg / 16 % 16) (decide scB)) true (at_ (c.bank.areg rb) sB k))
    ∧ (op = 5 → ∀ k, k < reps → operandOk r core 8 128 false (at_ (c.bank.areg rb) sB k))
    ∧ (op = 6 ∨ op = 7 → operandOk r core 64 1024 false (c.bank.areg ra))
    ∧ (op = 9 → operandOk r core 16 (n * 48) false (c.bank.areg ra))

/-- The bytes of an operation's block, which are its alignment too (R249, R254, R259 to R261, R329). -/
def blockBytes (op : Nat) : Nat :=
  if op = 1 ∨ op = 6 ∨ op = 7 ∨ op = 8 ∨ op = 18 then 32 else if (2 ≤ op ∧ op ≤ 5) ∨ op = 16 ∨ op = 17 then 64 else 0

/-- Slot 7 passes its checks: the distance of R42, the operand rules of R253 and R256, a bound channel that is not full or is in lenient
mode (R246, R374), a block inside the scratchpad (R223, R245), and for ckp a supervisor context (R261). -/
def engReady (s : State) (core x w : Nat) : Prop :=
  let r := s.atIssue core x
  let c := r.ctx core x
  let op := w / 2 ^ 19
  let v := (c.bank.areg (w / 2 ^ 10 % 16)).toNat
  let size := blockBytes op
  (∀ e, c.recE = some e → e.1 + 2 * e.2 ≤ c.count) ∧ c.bank.mark (0x90 + w / 2 ^ 10 % 16) = none
    ∧ (op = 9 → v / 2 ^ 35 = 0 ∧ v / 2 ^ 32 % 8 ≤ 4) ∧ (op = 10 → v / 2 ^ 32 = 0)
    ∧ (11 ≤ op → op ≤ 15 → v / 2 ^ 48 = 0 ∧ v / 2 ^ 8 % 256 = 0 ∧ (op ≠ 14 → v / 2 ^ 16 % 2 ^ 32 = 0) ∧ (w / 2 ^ 7 % 2 = 0 → v % 256 = 0))
    ∧ (1 ≤ op → op ≤ 10 → ∃ h, Sp.find? (r.core core).chans (w / 2 ^ 14 % 32) = some h
        ∧ (op ≤ 8 → h.open_.length < 16 ∨ ∃ l, r.launchOf core = some l ∧ l.lenient = true))
    ∧ (size ≠ 0 → v % size = 0 ∧ v < 2 ^ 20 ∧ v + size ≤ (r.core core).scratchSize)
    ∧ (op = 18 → c.priv = true)

/-- The context may issue, and no value of its empty moves is marked. -/
def mayDispatch (s : State) (core x : Nat) : Prop :=
  s.free core x = true ∧ ((s.atIssue core x).ctx core x).bank.mark 0 = none

/-- An operand of a slot-6 word: the register's value, the stride of a repeat prefix, the alignment, the extent in bytes, and whether RMT = 1 is
allowed (R193, R194, R202). -/
structure Operand where
  reg : Dw
  stride : Dw := 0
  align : Nat
  extent : Nat
  remote : Bool := false

/-- The operands of a word, A and then B: where both break one row of R216, which does not rank them, the model takes A's first (DESIGN CHOICE,
log entry 56). -/
def operandsOf (c : Ctx) (w : Nat) : List Operand :=
  let op := w / 2 ^ 19
  let n := matBeats w
  let cfg := c.mcfg.toNat
  let a := c.bank.areg (w / 2 ^ 12 % 16)
  let b := c.bank.areg (w / 2 ^ 8 % 16)
  let sA := (c.rept.map (·.sA)).getD 0
  let sB := (c.rept.map (·.sB)).getD 0
  let left : Operand := { reg := a, stride := sA, align := 16, extent := panelBytes n (cfg % 16) (cfg.testBit 8), remote := true }
  if op = 2 ∨ op = 3 ∨ op = 4 then
    [left, { reg := b, stride := sB, align := 16, extent := panelBytes n (cfg / 16 % 16) (cfg.testBit 9), remote := true }]
  else if op = 5 then [left, { reg := b, stride := sB, align := 8, extent := 128 }]
  else if op = 6 ∨ op = 7 then [{ reg := a, align := 64, extent := 1024 }]
  else if op = 9 then [{ reg := a, align := 16, extent := n * 48 }]
  else []

/-- The bytes of other cores' scratchpads that an operation reads, in all repetitions (R193, R212): the core, the offset, the number. -/
def panelsOf (s : State) (core : Nat) (c : Ctx) (w : Nat) : List (Nat × Nat × Nat) :=
  (operandsOf c w).flatMap (fun o => (List.range ((c.rept.map (·.r)).getD 1)).filterMap (fun k =>
    let a := (o.reg + BitVec.ofNat 64 k * o.stride).toNat
    if a / 2 ^ 28 % 2 = 1 then (s.peerCore core (a / 2 ^ 24 % 16)).map (fun d => (d, a % 2 ^ 20, o.extent)) else none))

/-- Slot 6 enters the matrix queue with what it reads at dispatch: its registers, the context's matrix configuration, its declared beats
the repeat prefix, and the bytes of other cores that it reads (R31, R112, R139, R212). mcfg sets the configuration (R197), mmrk counts its tag (R210). The record of R42 holds the
bundle and the beats times the repetitions; the registers a repeat prefix moves are written with latency 1. -/
def matEntered (panels : List (Nat × Nat × Nat)) (x w : Nat) (k : Core) : Core :=
  if w / 2 ^ 19 = 0 then { k with mq := mnop k x }
  else
    let c := k.ctx x
    let op := w / 2 ^ 19
    let tag := w / 2 ^ 8 % 256
    let ra := c.bank.areg (w / 2 ^ 12 % 16)
    let mark := Sp.get 0 c.tagD tag + 1
    let ups : List Flight := match c.rept with
      | some p => (movedRegs c w p).map (fun e =>
          { due := c.count + 1, born := c.count, unit := 0, slot := 6, dest := some (BitVec.ofNat 8 (0x90 + e.1)), latch := false
            val := some (.s e.2) })
      | none => []
    { k.setCtx x { c with
        mcfg := if op = 1 then ra else c.mcfg
        tagD := if op = 10 then Sp.put c.tagD tag mark else c.tagD
        recM := some (c.count, matBeats w * (match c.rept with
          | some p => p.r
          | none => 1))
        rept := none, flight := c.flight ++ ups } with
      mq := k.mq ++ [{ ctx := x, op := op, cyc := k.now, tile := w / 2 ^ 16 % 8, ra := ra, rb := c.bank.areg (w / 2 ^ 8 % 16)
                       beats := matBeats w, rept := c.rept, cfg := c.mcfg, tag := tag, mark := if op = 10 then mark else 0, panels := panels }] }

/-- Slot 7 enters the engine queue with its channel, its register and its immediate (R31, R245); a transfer takes the channel's next
identifier, which stays open until it completes, and counts a stall where the channel holds 16 already (R246, R247). The record of R42
holds the bundle and the declared beats. -/
def engEntered (x w : Nat) (k : Core) : Core :=
  if w / 2 ^ 19 = 0 then { k with eq := enop k x }
  else
    let c := k.ctx x
    let op := w / 2 ^ 19
    let ch := w / 2 ^ 14 % 32
    let h := Sp.get {} k.chans ch
    let moves := 1 ≤ op ∧ op ≤ 8
    let excess : Bool := decide (moves ∧ 16 ≤ h.open_.length)
    { k.setCtx x { c with recE := some (c.count, engBeats w) } with
      eq := k.eq ++ [{ ctx := x, op := op, cyc := k.now, ch := ch, ra := c.bank.areg (w / 2 ^ 10 % 16), imm := BitVec.ofNat 64 (w % 2 ^ 10)
                       beats := engBeats w, id := h.next, tagCount := Sp.get 0 c.tagD (w % 256), stalled := excess }]
      chans := if moves then Sp.put k.chans ch { h with
          next := (h.next + 1) % 2 ^ 32, open_ := h.open_ ++ [h.next], stalls := if excess then min 0xFFFF (h.stalls + 1) else h.stalls }
        else k.chans }

/-- The state after a bundle whose slots 6 and 7 hold these words, and whose moves are empty. -/
def dispatched (s : State) (core x wm we : Nat) : State :=
  let r := s.atIssue core x
  (r.modCore core (fun k => engEntered x we (matEntered (panelsOf r core (r.ctx core x) wm) x wm k))).ends core x (s.ctx core x)

end Sys2Proof.Claims

/-- O: every operation of slot 6 (mcfg, mma, mmaz, mmar, mmap, accrd, accwr, acccl, pldef, mmrk), and every operation of slot 7 (cpy, cpn,
cpz, cpc, cpk, cpe, send, recv, chw, chi, phr, phd, phs, phb, phw, ple, plu, ckp), that a context issues in a bundle of its own completes
when the checks of its slot hold: it enters its queue with what it reads at dispatch, and the bundle ends. An empty slot 6 or 7 (R112, R114)
does nothing but enter a queue that is not empty. The next state is given whole, so everything else stays. -/
def Obligations.SlotDispatch : Prop :=
  (∀ (s : State) (core x : Nat), Claims.mayDispatch s core x →
    let t := ((s.atIssue core x).modCore core (fun k => { k with mq := Claims.mnop k x, eq := Claims.enop k x })).ends core x (s.ctx core x)
    exec .matrixNop s = .next t ∧ exec .engineNop s = .next t)
  ∧ ∀ (i : Instr) (b : Bundle) (s : State) (core x : Nat), i.wf = true → bundleOf i = some b → (∀ q, i ≠ .bundleIssue q) →
    Claims.mayDispatch s core x →
    (b.mat ≠ 0 → Claims.matReady s core x b.mat.toNat → exec i s = .next (Claims.dispatched s core x b.mat.toNat 0))
    ∧ (b.eng ≠ 0 → Claims.engReady s core x b.eng.toNat → exec i s = .next (Claims.dispatched s core x 0 b.eng.toNat))

/-- O: one bundle may hold an operation in slot 6 and one in slot 7: both are dispatched in it, slot 6 first (R31 step 6). -/
def Obligations.TwoSlotBundle : Prop :=
  ∀ (b : Bundle) (s : State) (core x : Nat), Claims.mayDispatch s core x → b.moves = [0, 0, 0, 0, 0, 0] → b.hdr = 0 → b.pool = 0 →
    staticFault b = none → b.mat ≠ 0 → b.eng ≠ 0 → b.eng.toNat / 2 ^ 8 % 4 ≠ 3 →
    Claims.matReady s core x b.mat.toNat → Claims.engReady s core x b.eng.toNat →
    exec (.bundleIssue b) s = .next (Claims.dispatched s core x b.mat.toNat b.eng.toNat)

namespace Sys2Proof.Claims

/-- Row 4 of R216: a repeat prefix that the operation does not accept, a bad mcfg value, an odd n with scales in the 8-bit float class. -/
def badSchedule (c : Ctx) (w : Nat) : Prop :=
  let op := w / 2 ^ 19
  let cfg := c.mcfg.toNat
  let mul := 2 ≤ op ∧ op ≤ 5
  (c.rept ≠ none ∧ ¬ mul) ∨ (op = 1 ∧ ¬ configOk (c.bank.areg (w / 2 ^ 12 % 16)).toNat)
    ∨ (mul ∧ mclass (cfg % 16) = some 1 ∧ (cfg.testBit 8 = true ∨ (cfg.testBit 9 = true ∧ op ≠ 5)) ∧ matBeats w % 2 = 1)

/-- Row 5 of R216 for an operand, in some repetition: a reserved bit, CORE without RMT, or a misaligned offset. -/
def badLayout (c : Ctx) (o : Operand) : Prop :=
  ∃ k, k < (c.rept.map (·.r)).getD 1 ∧
    let a := (o.reg + BitVec.ofNat 64 k * o.stride).toNat
    a / 2 ^ 29 ≠ 0 ∨ a / 2 ^ 20 % 16 ≠ 0 ∨ (a / 2 ^ 28 % 2 = 0 ∧ a / 2 ^ 24 % 16 ≠ 0) ∨ a % 2 ^ 20 % o.align ≠ 0

/-- Row 6 of R216: RMT where it is not accepted, no core group of the launch, or an extent outside the scratchpad. -/
def badPlace (s : State) (core : Nat) (c : Ctx) (o : Operand) : Prop :=
  ∃ k, k < (c.rept.map (·.r)).getD 1 ∧
    let a := (o.reg + BitVec.ofNat 64 k * o.stride).toNat
    if a / 2 ^ 28 % 2 = 0 then (s.core core).scratchSize < a % 2 ^ 20 + o.extent
    else o.remote = false ∨ s.peerCore core (a / 2 ^ 24 % 16) = none
      ∨ ∃ d, s.peerCore core (a / 2 ^ 24 % 16) = some d ∧ (s.core d).scratchSize < a % 2 ^ 20 + o.extent

/-- A register operand of slot 7 that raises SCHEDULE_FAULT (R253, R256). -/
def badOperand (w v : Nat) : Prop :=
  let op := w / 2 ^ 19
  (op = 9 ∧ (v / 2 ^ 35 ≠ 0 ∨ 4 < v / 2 ^ 32 % 8)) ∨ (op = 10 ∧ v / 2 ^ 32 ≠ 0)
    ∨ (11 ≤ op ∧ op ≤ 15 ∧ (v / 2 ^ 48 ≠ 0 ∨ v / 2 ^ 8 % 256 ≠ 0 ∨ (op ≠ 14 ∧ v / 2 ^ 16 % 2 ^ 32 ≠ 0) ∨ (w / 2 ^ 7 % 2 = 0 ∧ v % 256 ≠ 0)))

/-- The record of the last dispatch forbids another now (R42). -/
def early (r : Option (Nat × Nat)) (count : Nat) : Prop := ∃ e, r = some e ∧ count < e.1 + 2 * e.2

end Sys2Proof.Claims

/-- O: an operation of slot 6 or 7 that a check of its dispatch refuses traps at its slot, and the bundle has none of its effects (R119,
R216, R245). In order, for slot 6: SCHEDULE_FAULT (3) before the distance of R42 has passed; POISON of a register it reads; SCHEDULE_FAULT of
row 4 of R216; ALIGNMENT (9), then PERMISSION (6), of an operand, with TADDR its register's value; of two operands that break one row the
A register's comes first, which R216 leaves open and is the model's choice (log entry 56). For slot 7: SCHEDULE_FAULT of R42; PERMISSION
of a ckp of a user context (R116); POISON; SCHEDULE_FAULT of a register operand (R253, R256); PERMISSION of an unbound channel (R374); ALIGNMENT,
then PERMISSION, of the block's address (R223, R245); and QUEUE_FULL (4) where a channel in strict mode holds 16 (R246). -/
def Obligations.SlotTraps : Prop :=
  ∀ (i : Instr) (b : Bundle) (s : State) (core x : Nat), i.wf = true → bundleOf i = some b → (∀ q, i ≠ .bundleIssue q) →
    Claims.mayDispatch s core x →
    let r := s.atIssue core x
    let c := r.ctx core x
    let trap (cause pos : Nat) (addr : Option Dw) : Res :=
      .next ((s.settleLoops core x).takeTrap core x { cause := cause, pos := pos, addr := addr })
    let w := b.mat.toNat
    let mop := w / 2 ^ 19
    let reads := (if mop = 1 ∨ (2 ≤ mop ∧ mop ≤ 7) ∨ mop = 9 then [w / 2 ^ 12 % 16] else []) ++ (if 2 ≤ mop ∧ mop ≤ 5 then [w / 2 ^ 8 % 16] else [])
    let v := b.eng.toNat
    let eop := v / 2 ^ 19
    let reg := c.bank.areg (v / 2 ^ 10 % 16)
    let size := Claims.blockBytes eop
    let chan := Sp.find? (r.core core).chans (v / 2 ^ 14 % 32)
    (mop ≠ 0 → Claims.early c.recM c.count → exec i s = trap 3 6 none)
    ∧ (mop ≠ 0 → ¬ Claims.early c.recM c.count →
      (∀ pre n post a, reads = pre ++ n :: post → (∀ k ∈ pre, c.bank.mark (0x90 + k) = none) → c.bank.mark (0x90 + n) = some a →
        exec i s = trap 10 6 (some a))
      ∧ ((∀ n ∈ reads, c.bank.mark (0x90 + n) = none) →
        (Claims.badSchedule c w → exec i s = trap 3 6 none)
        ∧ (¬ Claims.badSchedule c w → ∀ pre o post, Claims.operandsOf c w = pre ++ o :: post →
          ((∀ p ∈ pre, ¬ Claims.badLayout c p) → Claims.badLayout c o → exec i s = trap 9 6 (some o.reg))
          ∧ ((∀ p ∈ Claims.operandsOf c w, ¬ Claims.badLayout c p) → (∀ p ∈ pre, ¬ Claims.badPlace r core c p) →
              Claims.badPlace r core c o → exec i s = trap 6 6 (some o.reg)))))
    ∧ (eop ≠ 0 → Claims.early c.recE c.count → exec i s = trap 3 7 none)
    ∧ (eop ≠ 0 → ¬ Claims.early c.recE c.count →
      (eop = 18 → c.priv = false → exec i s = trap 6 7 none)
      ∧ (eop ≠ 18 ∨ c.priv = true →
        (∀ a, c.bank.mark (0x90 + v / 2 ^ 10 % 16) = some a → exec i s = trap 10 7 (some a))
        ∧ (c.bank.mark (0x90 + v / 2 ^ 10 % 16) = none →
          (Claims.badOperand v reg.toNat → exec i s = trap 3 7 none)
          ∧ (¬ Claims.badOperand v reg.toNat → 1 ≤ eop → eop ≤ 10 → chan = none → exec i s = trap 6 7 none)
          ∧ (size ≠ 0 → 8 < eop ∨ chan ≠ none →
            (reg.toNat % size ≠ 0 ∨ 2 ^ 20 ≤ reg.toNat → exec i s = trap 9 7 (some reg))
            ∧ (reg.toNat % size = 0 → reg.toNat < 2 ^ 20 → (r.core core).scratchSize < reg.toNat + size →
                exec i s = trap 6 7 (some (BitVec.ofNat 64 (max reg.toNat (r.core core).scratchSize))))
            ∧ (reg.toNat % size = 0 → reg.toNat + size ≤ (r.core core).scratchSize → reg.toNat < 2 ^ 20 → ∀ h l, eop ≤ 8 → chan = some h →
                16 ≤ h.open_.length → r.launchOf core = some l → l.lenient = false → exec i s = trap 4 7 none)))))

namespace Sys2Proof.Claims

/-! ### The header and the loops -/

/-- A bundle that holds a header and nothing else. -/
def header (h : Nat) : Bundle := { hdr := BitVec.ofNat 32 h }

/-- A pair that does not move stands at its target, and one that moves does so toward it (R59). -/
def atTarget (s : State) (pair : Nat) : Prop :=
  match (s.pair pair).moving with
  | none => (s.pair pair).cur = s.pairTarget pair
  | some t => t = s.pairTarget pair

/-- The context may issue but for the modulo loop it is in. -/
def inModulo (s : State) (core x : Nat) : Prop :=
  (s.modCtx core x (fun c => { c with loops := { c.loops with ml := {} } })).free core x = true
    ∧ ((s.atIssue core x).ctx core x).loops.ml.active = true ∧ ((s.atIssue core x).ctx core x).bank.mark 0 = none

/-- The bundles of the prologue, those of the kernel's iterations, and the last kernel bundle of one of them (R135). -/
def lead (m : Modulo) : Nat := (m.st - 1) * m.k
def kernel (m : Modulo) : Nat := (max m.n m.st + 1 - m.st) * m.k
def kernelEnd (m : Modulo) : Prop := lead m ≤ m.issued ∧ m.issued < lead m + kernel m ∧ (m.issued - lead m) % m.k = m.k - 1

/-- The number of the pass of the bundle about to issue (R135, R137). -/
def passNo (m : Modulo) : Nat := m.base + m.issued / m.k

/-- What a loop with RB 1 adds to its snapshots at a bundle (R136): at the first bundle of pass j, for j below M, the carried set. -/
def snapsAfter (m : Modulo) (b : Bank) : List (Nat × List (Byte × Val × Option Dw)) :=
  if m.rb = true ∧ m.issued % m.k = 0 ∧ passNo m < m.mAbs then
    m.snaps ++ [(passNo m, m.carried.map (fun r => (r, b.read r.toNat, b.mark r.toNat)))]
  else m.snaps

/-- The iteration whose held stores leave after this bundle (R136): that of the pass S − 1 before the one that ends with it. -/
def released (m : Modulo) : Option Nat :=
  let n := m.issued + 1
  if m.rb = true ∧ n % m.k = 0 ∧ m.st ≤ m.base + n / m.k then some (m.base + n / m.k - m.st) else none

end Sys2Proof.Claims

/-- O: the header of a bundle. EW charges its weight to the pair (R53): in a tidelocked pair both twins' (R44); and to the launch (R379). A
bundle that would raise the sum above the grant, and is not the first of its period nor one that the grant has held till then, does not issue:
its core freezes (R54). OPC with OP sets
the core's request, and the pair goes to the higher of its twins' requests, limited to CEIL; inside the context's own settling interval it
raises SCHEDULE_FAULT at position 8 (R59). The order in which the twins of a tidelocked pair are charged, the upper's charge put off to the
next period with the core frozen until then when it would exceed the grant, and a sum that rises with EN 0 too and stays at 0xFFFF, are the
model's choice (log entry 80). -/
def Obligations.BundleHeader : Prop :=
  ∀ (s : State) (core x w op : Nat) (opc : Bool), Claims.mayDispatch s core x → w < 64 → op < 8 →
    let b := Claims.header (w + 64 * op + if opc then 512 else 0)
    let pair := s.pairOf core
    let p := s.pair pair
    let c := (s.atIssue core x).ctx core x
    let sum := min 0xFFFF (p.sum + w)
    let late : Prop := p.mode = 1 ∧ p.grantEn = true ∧ w ≠ 0 ∧ p.grant.toNat < sum + w
    (opc = true → c.setLen ≠ 0 → exec (.bundleIssue b) s = .next ((s.settleLoops core x).takeTrap core x { cause := 3, pos := 8 }))
    ∧ (opc = false ∨ c.setLen = 0 →
      (p.grantEn = true → w ≠ 0 → p.fresh = false → p.grant.toNat < p.sum + w → (s.core core).granted = false →
        exec (.bundleIssue b) s = .next ((s.settleLoops core x).freeze core .grant))
      ∧ (p.grantEn = false ∨ w = 0 ∨ p.fresh = true ∨ p.sum + w ≤ p.grant.toNat ∨ (s.core core).granted = true →
        ∃ t, exec (.bundleIssue b) s = .next t
          ∧ (p.mode ≠ 1 → (t.pair pair).sum = sum) ∧ (p.mode = 1 → ¬ late → (t.pair pair).sum = min 0xFFFF (sum + w))
          ∧ (late → (t.pair pair).sum = sum ∧ (t.pair pair).carry = w ∧ (t.core core).frozen = some .grant)
          ∧ (¬ late → (t.pair pair).carry = p.carry ∧ (t.core core).frozen = none) ∧ (t.pair pair).fresh = false
          ∧ (t.core core).granted = false
          ∧ (w ≠ 0 → (t.launch c.launch).energy = (s.launch c.launch).energy + (if p.mode = 1 then 2 * w else w))
          ∧ (t.ctx core x).pc = (advancePend c.pend).2.getD (c.pc + 32) ∧ (t.ctx core x).count = c.count + 1
          ∧ (opc = true → (t.core core).req = op ∧ (t.ctx core x).setPrev = op
              ∧ (t.ctx core x).setLen = Config.settling c.setPrev op - 1 ∧ (p.moving = none → Claims.atTarget t pair))
          ∧ (opc = false → (t.core core).req = (s.core core).req ∧ (t.ctx core x).setPrev = c.setPrev
              ∧ (t.ctx core x).setLen = c.setLen - 1 ∧ (t.pair pair).cur = p.cur)
          ∧ (t.ctx core x).bank = c.bank ∧ (t.core core).scratch = (s.core core).scratch ∧ t.mem = s.mem))

/-- O: loops as they run. LE at the end bundle of an active level counts down and takes the back-edge while the count is not zero and no
transfer is pending; a level that is not active it leaves alone (R131, R132). In a modulo loop every bundle counts toward the passes; LE 11
stands in the last kernel bundle and nowhere else, else SCHEDULE_FAULT at position 8; that bundle goes back to the kernel's first until the
kernel has run M − S + 1 times (R135). With RB 1 a store is held for iteration p − STS, seen by the context's own loads, discarded beyond M
after a rollback, and released when pass j + S − 1 has ended; the carried set is kept at the first bundle of each pass (R136). A poison or a
divergence rolls the loop back to iteration j0 = max(B, p − S + 1): results in flight are discarded, the carried set returns, TEPC names the
prologue's first bundle, TITER j0, and the handler is entered with cause 11 and the CODE; without the handler the launch is killed with
that code (R137). That the plain moves of the bundle before the detecting one are written first is the model's reading (log entry 40), and so
is the position 0xF (log entry 39). -/
def Obligations.LoopExecution : Prop :=
  (∀ (s : State) (core x lvl : Nat), Claims.mayDispatch s core x → lvl < 3 →
    let c := (s.atIssue core x).ctx core x
    let l := c.loops.level lvl
    ∃ t, exec (.bundleIssue (Claims.header (2 ^ 13 * (lvl + 1)))) s = .next t
      ∧ (t.ctx core x).loops = (if l.active = true then c.loops.setLevel lvl { l with count := l.count - 1 } else c.loops)
      ∧ (t.ctx core x).pc
        = (if l.active = true ∧ l.count - 1 ≠ 0 ∧ c.pend = [] then l.start else (advancePend c.pend).2.getD (c.pc + 32))
      ∧ (t.ctx core x).count = c.count + 1 ∧ (t.ctx core x).bank = c.bank ∧ t.mem = s.mem)
  ∧ (∀ (s : State) (core x : Nat) (le3 : Bool), Claims.inModulo s core x →
    let c := (s.atIssue core x).ctx core x
    let m := c.loops.ml
    let b := Claims.header (if le3 then 2 ^ 13 * 3 else 0)
    (¬ (le3 = true ↔ Claims.kernelEnd m) →
      exec (.bundleIssue b) s = .next ((s.settleLoops core x).takeTrap core x { cause := 3, pos := 8 }))
    ∧ ((le3 = true ↔ Claims.kernelEnd m) →
      ∃ w, exec (.bundleIssue b) s = .next (match Claims.released m with
            | some j => w.releaseHeld core x (fun i => i == j)
            | none => w)
        ∧ (w.ctx core x).loops = { c.loops with ml := { m with issued := m.issued + 1, snaps := Claims.snapsAfter m c.bank } }
        ∧ (w.ctx core x).pc = (if le3 = true ∧ m.issued + m.k < Claims.lead m + Claims.kernel m ∧ c.pend = [] then
              m.start + BitVec.ofNat 64 (32 * Claims.lead m) else (advancePend c.pend).2.getD (c.pc + 32))
        ∧ (w.ctx core x).count = c.count + 1 ∧ (w.ctx core x).bank = c.bank ∧ (w.core core).scratch = (s.core core).scratch
        ∧ w.mem = s.mem))
  ∧ (∀ (s : State) (core x j : Nat) (a : StoreAcc), (s.ctx core x).loops.ml.held = [(j, a)] → a.space = 1 → a.core = core → a.rel = none →
    let t := s.releaseHeld core x (fun i => i == j)
    (t.core core).scratch = Memory.writes (s.core core).scratch a.cells ∧ (t.ctx core x).loops.ml.held = [])
  ∧ (∀ (s : State) (core x : Nat) (a : StoreAcc),
    let m := (s.ctx core x).loops.ml
    let p := Claims.passNo m
    let u := if a.space = 0 then s else s.keepUnder core x a.core a.cells
    m.active = true → m.rb = true → m.fresh = false →
    (m.sts ≤ p → m.base ≤ p - m.sts → p - m.sts < m.mAbs →
      let t := s.putStore core x a
      t = u.modCtx core x (fun c => { c with loops := { c.loops with ml := { c.loops.ml with held := m.held ++ [(p - m.sts, a)] } } })
      ∧ ∀ before addr v, a.cells = before ++ [(addr, v)] → (t.ctx core x).heldByte a.space a.core addr = some v)
    ∧ (m.sts ≤ p → m.base ≤ p - m.sts → m.mAbs ≤ p - m.sts → m.again = true → s.putStore core x a = u)
    ∧ (p < m.sts ∨ p - m.sts < m.base → s.putStore core x a = (u.yieldHeld core x a.space a.core a.cells).sendStore core a))
  ∧ (∀ (s : State) (core x code pos : Nat) (addr : Dw),
    let c := s.ctx core x
    let m := c.loops.ml
    let j0 := max m.base (Claims.passNo m + 1 - m.st)
    let t := s.consumePoison core x code pos addr
    let d := t.ctx core x
    m.active = true → m.rb = true → (∀ h ∈ m.held, j0 ≤ h.1) →
    (c.sys.uhmask.getLsbD 11 = true → c.inHandler = false →
      d.pc = c.sys.uhvec ∧ d.inh = true ∧ d.sys.tepc = m.start ∧ d.sys.tpend0 = 0 ∧ d.sys.tpend1 = 0
      ∧ d.sys.titer = BitVec.ofNat 64 (j0 % 2 ^ 32) ∧ d.sys.taddr = addr
      ∧ d.sys.tcause = BitVec.ofNat 64 (11 + 15 * 2 ^ 8 + code % 256 * 2 ^ 16)
      ∧ d.flight = [] ∧ d.shadow = [] ∧ (t.core core).latches = []
      ∧ (m.issued % m.k ≠ 0 →
          d.bank = (((m.snaps.find? (fun e => e.1 == j0)).map (·.2)).getD []).foldl (fun b e => b.write e.1.toNat e.2.1 e.2.2)
            (c.plainDue.foldl Bank.deliver c.bank))
      ∧ ∃ v, d.saved = some v ∧ v.flight = [] ∧ v.loops = { c.loops with ml := { m with
            n := m.mAbs - j0, base := j0, issued := 0, held := [], snaps := [], again := true } })
    ∧ (c.sys.uhmask.getLsbD 11 = false → (s.launch c.launch).phase ≠ .done →
      (t.launch c.launch).status = (if (s.launch c.launch).status = 0 then code else (s.launch c.launch).status)))

/-! ### The agents of the device -/

namespace Sys2Proof.Claims

/-- A core of the pair that the energy grant holds back. -/
def heldBy (s : State) (pair k : Nat) : Prop :=
  ∃ c, Sp.find? s.cores k = some c ∧ cluOfCore k = cluOfPair pair ∧ c.logical / 2 = pair % 8 ∧ c.frozen = some .grant

end Sys2Proof.Claims

/-- O: the steps of a pair complete. A grant period starts with the sum at zero and ends the freeze of every core the grant held, whose
bundle then issues whatever the sum (R54); that it does so with EN 0 too is the model's choice (log entry 100); a move
ends at its target, and the pair goes on to a target that has changed (R59); a supervisor's write sets CEIL (R60) or MODE, unless MODE is 10 or
11 or a context is live (R48); a pair that no launch holds is reset (R61), with CEIL at OP3 in a ready cluster too (the model's choice, log
entry 107), and with the promotion requests that its cores have not acknowledged (R282; log entry 45). That a period starts instead at the
charge of an upper twin that the last one put off, and is then not fresh, is the model's choice (log entry 80). -/
def Obligations.PairSteps : Prop :=
  ∀ (s : State) (pair core : Nat) (v : Dw),
    (∃ t, exec (.grantPeriodStart pair) s = .next t ∧ (t.pair pair).sum = (s.pair pair).carry ∧ (t.pair pair).carry = 0
      ∧ ((t.pair pair).fresh = true ↔ (s.pair pair).carry = 0)
      ∧ (∀ k, Claims.heldBy s pair k → (t.core k).frozen = none ∧ ((t.core k).granted = true ↔ (s.pair pair).carry = 0)) ∧ (∀ k, (s.core k).frozen ≠ some .grant → t.core k = s.core k)
      ∧ (∀ q, q ≠ pair → t.pair q = s.pair q) ∧ t.mem = s.mem)
    ∧ (∀ m, (s.pair pair).moving = some m → s.pairTicks pair = false ∨ (s.pair pair).moveEnd ≤ s.pairNow pair →
      ∃ t, exec (.opMoveComplete pair) s = .next t ∧ (t.pair pair).cur = min m (s.pairTarget pair)
        ∧ (t.pair pair).moving = (if s.pairTarget pair = m then none else some (s.pairTarget pair))
        ∧ (∀ q, q ≠ pair → t.pair q = s.pair q) ∧ t.cores = s.cores ∧ t.mem = s.mem)
    ∧ (∃ t, exec (.ceilWrite core v) s = .next t ∧ (t.pair (s.pairOf core)).ceil = v.toNat / 64 % 8
        ∧ (t.pair (s.pairOf core)).ceilSet = v.toNat / 64 % 8
        ∧ ((s.pair (s.pairOf core)).moving = none → Claims.atTarget t (s.pairOf core))
        ∧ (∀ q, q ≠ s.pairOf core → t.pair q = s.pair q) ∧ t.cores = s.cores ∧ t.mem = s.mem)
    ∧ (∃ t, exec (.paircfgWrite core v) s = .next t
        ∧ (t.pair (s.pairOf core)).mode
          = (if v.toNat % 4 < 2 ∧ s.pairLive (s.pairOf core) = false then BitVec.ofNat 2 (v.toNat % 4) else (s.pair (s.pairOf core)).mode)
        ∧ (∀ q, q ≠ s.pairOf core → t.pair q = s.pair q) ∧ t.cores = s.cores ∧ t.mem = s.mem)
    ∧ (s.pairHolders pair = [] →
      ∃ t, exec (.pairReset pair) s = .next t ∧ t.pair pair = {}
        ∧ (∀ k, k ∈ s.pairCores pair → t.core k = { preqs := (s.core k).preqs })
        ∧ (∀ k, k ∉ s.pairCores pair → t.core k = s.core k) ∧ (∀ q, q ≠ pair → t.pair q = s.pair q) ∧ t.mem = s.mem)

namespace Sys2Proof.Claims

/-- A result of the context has not arrived. -/
def awaits (c : Ctx) (p : Flight → Bool) : Prop := ∃ f, (f ∈ c.flight ∨ f ∈ c.shadow) ∧ p f = true ∧ f.arrived = false

/-- A core after a step that ends a freeze: no context awaits a result of the kind p, and the freeze is over, unless something is late
still. -/
def dataCame (k k' : Core) (p : Nat → Flight → Bool) (late : Bool) : Prop :=
  (∀ e, e ∈ k'.ctxs → ¬ awaits e.2 (p e.1)) ∧ k'.frozen = (if k.frozen = some .data ∧ late = false then none else k.frozen)
    ∧ k'.scratch = k.scratch ∧ k'.l1 = k.l1 ∧ k'.now = k.now ∧ k'.run = k.run

end Sys2Proof.Claims

/-- O: the steps of a core's contexts complete, when a core is ready for them: a loop whose count has run out, or whose
last epilogue bundle has issued, ends (R131, R135; COUNT of MLITER then is the last pass's number, log entry 82, the model's choice); a blocked bundle with MB 1 switches its context out, one with MB 0 stalls the core (R50,
R51); a stalled core goes on, and an idle one takes the next context in order (R376), once the condition has cleared, after an even number of
cycles (R36) and with latches that read zero (R34, R50, R52); results that are due are written (R32); the wait for data ends with its arrival,
and where its home is lost or suspended with the timeout, and the freeze with it (R35, R423, R434); USER_INTERRUPT is taken (R344). -/
def Obligations.ContextSteps : Prop :=
  ∀ (s : State) (core x : Nat),
    (∀ lvl, lvl < 3 → ((s.ctx core x).loops.level lvl).active = true → ((s.ctx core x).loops.level lvl).count = 0 →
      exec (.loopCountExpire core x lvl) s = .next (s.modCtx core x (fun c =>
        { c with loops := c.loops.setLevel lvl { c.loops.level lvl with active := false } })))
    ∧ ((s.ctx core x).loops.ml.active = true → (s.ctx core x).loops.ml.total ≤ (s.ctx core x).loops.ml.issued →
      exec (.loopCountExpire core x 3) s = .next (s.modCtx core x (fun c =>
        { c with loops := { c.loops with ml := {}, lastPass := c.loops.ml.base + (c.loops.ml.total - 1) / c.loops.ml.k } })))
    ∧ (∀ r y b, s.blocksWith core true = some (r, y, b) →
      exec (.contextSwitchOut core) s = .next ((r.arriveAt core y b).1.modCore core (fun k =>
        (k.setCtx y { k.ctx y with waits := !(k.aligning y) }).switchNext y)))
    ∧ (∀ r y b, s.blocksWith core false = some (r, y, b) →
      exec (.stallInPlace core) s = .next ((r.arriveAt core y b).1.modCore core (fun k =>
        { k.setCtx y { k.ctx y with waits := !(k.aligning y) } with stalled := true, idle := if k.stalled then k.idle else k.now })))
    ∧ ((s.core core).run = none → (s.core core).frozen = none → (s.core core).launch ≠ none →
      nextCtx (s.core core).mayRun (s.core core).last = some x →
      exec (.contextResume core x) s = .next (s.modCore core (fun k =>
        { k.setCtx x { k.ctx x with phase := .ready } with
          run := some x, stalled := false, latches := [], now := k.now + (k.now - k.idle) % 2 })))
    ∧ ((s.core core).run = some x → (s.core core).frozen = none → (s.core core).stalled = true →
      ((s.core core).unblocked x = true ∨ (s.ctx core x).asyncDue = true) →
      exec (.stallEnd core) s = .next (s.modCore core (fun k => { k with stalled := false, now := k.now + (k.now - k.idle) % 2 })))
    ∧ (∀ r b, s.takeNext core = (r, some (x, b)) → (r.arriveAt core x b).2 = .go → (r.ctx core x).due ≠ [] →
      ∃ t, exec (.resultWrite core x) s = .next t ∧ (t.ctx core x).bank = (r.ctx core x).due.foldl Bank.deliver (r.ctx core x).bank
        ∧ (t.core core).latches = (r.ctx core x).due.foldl deliverLatch (r.core core).latches
        ∧ (t.ctx core x).due.all (fun f => f.val.isNone) = true ∧ (t.ctx core x).count = (r.ctx core x).count ∧ t.mem = r.mem)
    ∧ (∃ t, exec (.memoryDataArrival core) s = .next t
        ∧ Claims.dataCame (s.core core) (t.core core) (fun y f => !f.dead && !((s.core core).promised y f))
            ((t.core core).run.any (fun y => (t.ctx core y).lateData))
        ∧ (∀ k, k ≠ core → t.core k = s.core k) ∧ t.mem = s.mem)
    ∧ ((s.core core).frozen = some .fetch →
      exec (.bundleFetchFill core) s = .next (s.modCore core (fun k => { k with frozen := none })))
    ∧ ((∃ d, d < 4 ∧ s.dieDown d = true) →
      ∃ t, exec (.lostDieAccessTimeout core) s = .next t ∧ Claims.dataCame (s.core core) (t.core core) (fun _ f => f.dead) false
        ∧ (∀ k, k ≠ core → t.core k = s.core k) ∧ t.mem = s.mem)
    ∧ (s.peersSuspended ≠ 0 →
      ∃ t, exec (.suspendedDeviceAccessTimeout core) s = .next t ∧ Claims.dataCame (s.core core) (t.core core) (fun _ f => f.dead) false
        ∧ (∀ k, k ≠ core → t.core k = s.core k) ∧ t.mem = s.mem)
    ∧ (∀ ch rest, (s.core core).run = some x → (s.core core).frozen = none → (s.ctx core x).inHandler = false →
      (s.ctx core x).uip = ch :: rest →
      exec (.userInterruptTaken core x) s
        = .next ((s.modCtx core x (fun c => { c with uip := rest })).takeTrap core x { cause := 16, code := ch }))

/-- O: the steps of a core's queues complete: an operation leaves the matrix queue at the core's first window after its predecessors and takes
the array, an mmap with its strip descriptor read (R41, R202, R211); a window passes unused while remote rows have not come, and a beat that is
performed leads to the next beat, the next repetition or the end of the operation (R211, R214; what a beat does is another statement's); a mark
fires (R210); the head of the engine queue issues, is discarded when its context has halted (R144), waits for its channel's occupancy, its
watermark or its phaser (R41, R246, R253, R257), or freezes its core while its release finds the log full (R279); a phaser that is ready
completes its phase (R339). -/
def Obligations.QueueSteps : Prop :=
  ∀ (s : State) (core : Nat),
    let k := s.core core
    (∀ e rest, k.mrun = none → k.mq = e :: rest → e.op ≠ 0 →
      let w := k.windowUp (max k.mfree e.cyc)
      k.windowOpen w = true →
      ∃ t q, exec (.matrixOpIssue core) s = .next t ∧ (t.core core).mrun = some q
        ∧ q.ent = e ∧ q.beat = 0 ∧ q.rep = 0 ∧ q.waits = e.remote 0
        ∧ (e.op = 5 → q.desc = (s.viewOf core e.ctx).scratchDws core (e.rb.toNat % 2 ^ 20) 16)
        ∧ (t.core core).mq = rest.dropWhile (fun e => e.op == 0) ∧ (t.core core).mwin = w ∧ (t.core core).now = max k.now w
        ∧ (t.core core).tiles = k.tiles ∧ (∀ j, j ≠ core → t.core j = s.core j) ∧ t.mem = s.mem)
    ∧ (∀ r, let b := s.beatSettle core
      (b.core core).mrun = some r → (b.core core).windowOpen (b.core core).mwin = true →
      let w := (b.readDescs core).modCore core (fun k => k.reach k.mwin)
      (r.waits = true → exec (.matrixBeat core) s = .next (w.modCore core (fun k => { k with mwin := k.mwin + 2 })))
      ∧ (r.waits = false →
        ∃ t, exec (.matrixBeat core) s = .next t ∧ (t.core core).mwin = (b.core core).mwin + 2
          ∧ (if r.beat + 1 < r.ent.beats then
               ∃ q, (t.core core).mrun = some q ∧ q.ent = r.ent ∧ q.beat = r.beat + 1 ∧ q.rep = r.rep ∧ q.waits = r.ent.remote r.rep
             else if r.rep + 1 < r.ent.reps then
               ∃ q, (t.core core).mrun = some q ∧ q.ent = r.ent ∧ q.beat = 0 ∧ q.rep = r.rep + 1 ∧ q.waits = r.ent.remote (r.rep + 1)
             else (t.core core).mrun = none ∧ (t.core core).mfree = (b.core core).mwin + 2)))
    ∧ (∀ r, k.mrun = some r →
      exec (.remoteOperandArrival core) s = .next (s.modCore core (fun k => { k with mrun := some { r with waits := false } })))
    ∧ (∀ m rest, k.marks = m :: rest →
      ∃ t, exec (.mmrkFire core) s = .next t ∧ (t.core core).marks = rest ∧ Sp.find? (t.ctx core m.1).tagF m.2.1 = some m.2.2
        ∧ (∀ g, g ≠ m.2.1 → Sp.find? (t.ctx core m.1).tagF g = Sp.find? (s.ctx core m.1).tagF g) ∧ t.mem = s.mem)
    ∧ (∀ w e, s.engHead core = some (w, e) →
      let r := s.modCore core Core.popNopsE
      let at_ := r.modCore core (fun k => { k with now := max k.now w })
      let leave (t : State) : State := t.modCore core (fun k => k.popEng (max w (k.windowDown k.now)) e.beats)
      let both (t : State) : Prop :=
        exec (.engineOpIssue core) s = .next t ∧ (e.stalled = true → exec (.channelOccupancyFall core) s = .next t)
      (r.engDiscard core e = true → both (leave at_))
      ∧ (r.engDiscard core e = false →
        ((r.core core).overOccupied e = true ∨ r.engHeld core e = true → both r)
        ∧ ((r.core core).overOccupied e = false → r.engHeld core e = false →
          (r.engFull core e = true → both (r.freeze core .logFull))
          ∧ (r.engFull core e = false → both (leave (at_.engAct core e))))))
    ∧ (∀ ph, (s.phaser ph).ready = true →
      ∃ f, exec (.phaseComplete ph) s = .next (s.setPhaser ph f) ∧ f.members = (s.phaser ph).members.filter (fun m => !m.leaving)
        ∧ f.pend1 = 0 ∧ (f.members ≠ [] → f.phase = (s.phaser ph).phase + 1 ∧ f.pend0 = (s.phaser ph).pend1)
        ∧ (f.members = [] → f = {}))

namespace Sys2Proof.Claims

/-- A core as the beat of an operation finds its tile: mmaz clears it before its first beat (R200). -/
def tileReady (s : State) (core : Nat) (r : MRun) : State :=
  if r.ent.op = 3 ∧ r.rep = 0 ∧ r.beat = 0 then s.modCore core (fun k => (k.setTile r.ent.tile []).markTile r.ent.tile false) else s

/-- The dtab entry i that follows a profile record (R204, R286). -/
def tableEntry (d : List Dw) (i : Nat) : BitVec 16 := BitVec.ofNat 16 (dwOf d (4 + i / 4) / 2 ^ (16 * (i % 4)))

end Sys2Proof.Claims

/-- O: what a beat does when its window comes and its rows are there. mma, mmaz, mmar and mmap take the outer products of 16 rows and 16
columns into tile T, an mmaz from zero, an mmap's columns decoded from its strips (R198 to R200, R202, R203); an integer element becomes the
sum modulo 2^32 (R91); poison that a beat reads marks the tile (R410); an mmar leaves the ranks of its scores in the partner tile after its last
beat (R201). accrd writes a row to the scratchpad (R207), accwr reads one (R208), acccl clears the tile (R209), pldef defines a slot and its
table with its last beat (R204), mmrk hands on its mark (R210), and mcfg, which acts at dispatch, does nothing more (R195). What a
multiplication has read of other cores before its beat stands as it was then (`underKept`, R212). That a malformed pldef gives its invalid slot
a writer and an owner, and when a repetition's descriptor is read, are the model's choice (log entries 105 and 58). -/
def Obligations.ArrayBeats : Prop :=
  (∀ (s : State) (core : Nat) (r : MRun),
    let b := s.beatSettle core
    (b.core core).mrun = some r → (b.core core).windowOpen (b.core core).mwin = true → r.waits = false →
    let q := b.readDesc core r
    let w := (b.readDescs core).modCore core (fun k => k.reach k.mwin)
    let z := Claims.tileReady w core q
    let v := ((z.beatOrder core q).viewOf core r.ent.ctx).underKept r.ent
    let own := w.viewOf core r.ent.ctx
    let tl := r.ent.tile
    let k := z.core core
    let int := mxClass (mxA r.ent.cfg.toNat) == 3
    let cols := if r.ent.op = 5 then (v.mmapCols core q).1 else (v.beatCols core q).1
    let sums := beatTile int (k.tileWords tl) (v.beatRows core q).1 cols
    let last := r.beat + 1 = r.ent.beats
    ∃ t, exec (.matrixBeat core) s = .next t
      ∧ (r.ent.op = 2 ∨ r.ent.op = 3 ∨ r.ent.op = 5 ∨ (r.ent.op = 4 ∧ ¬ last) → (t.core core).tiles = (k.setTile tl sums).tiles)
      ∧ (r.ent.op = 4 → last →
          (t.core core).tiles
            = ((k.setTile tl sums).setTile (tl ^^^ 1) (rankTile int (mxRcol r.ent.cfg.toNat) ((k.setTile tl sums).tileWords tl))).tiles)
      ∧ (2 ≤ r.ent.op → r.ent.op ≤ 5 → r.poison ≠ none ∨ (v.beatRows core q).2 ≠ none → Sp.get 0 (t.core core).tileMarks tl = 0xFFFF)
      ∧ (r.ent.op = 6 → r.beat < 16 →
          (t.core core).scratch = Memory.writes (b.core core).scratch
            (cellsAt (r.ent.ra.toNat % 2 ^ 20 + 64 * r.beat) (bytesOf 64 ((b.core core).tileRow tl r.beat)))
          ∧ (t.core core).tiles = (b.core core).tiles)
      ∧ (r.ent.op = 7 → r.beat < 16 →
          (t.core core).tiles = ((b.core core).setTile tl (((b.core core).tileWords tl).take (16 * r.beat)
            ++ unpackElems 32 (own.scratchNat core (r.ent.ra.toNat % 2 ^ 20 + 64 * r.beat) 64) 16
            ++ ((b.core core).tileWords tl).drop (16 * r.beat + 16))).tiles)
      ∧ (r.ent.op = 8 → (t.core core).tiles = Sp.set 0 (b.core core).tiles tl 0 ∧ (t.core core).tileMarks = Sp.set 0 (b.core core).tileMarks tl 0)
      ∧ (r.ent.op = 9 → last →
          let d := r.desc ++ own.scratchDws core (r.ent.ra.toNat % 2 ^ 20 + 48 * r.beat) 6
          let rec_ := d.take 4
          let bad := prMalformed rec_ = true ∨ r.ent.beats * 48 < prBytes rec_
          let p := w.pair (w.pairOf core)
          let p' := t.pair (w.pairOf core)
          (bad → p'.slots = Sp.put p.slots tl { record := rec_, valid := false, writer := core, owner := w.ownerOf core } ∧ p'.dtab = p.dtab)
          ∧ (¬ bad → p'.slots = Sp.put p.slots tl { record := rec_, writer := core, owner := w.ownerOf core }
              ∧ p'.dtab = (List.range (if prTable rec_ then 2 ^ prL rec_ else 0)).foldl
                  (fun m i => Sp.set 0 m (prTbase rec_ + i) (Claims.tableEntry d i)) p.dtab))
      ∧ (r.ent.op = 10 → r.ent.mark ≠ 0 → (t.core core).marks = (b.core core).marks ++ [(r.ent.ctx, r.ent.tag, r.ent.mark)])
      ∧ (r.ent.op = 1 ∨ r.ent.op = 9 ∨ r.ent.op = 10 → (t.core core).tiles = (b.core core).tiles)
      ∧ (r.ent.op ≠ 6 → r.ent.op < 2 ∨ 5 < r.ent.op → (t.core core).scratch = (b.core core).scratch)
      ∧ (r.ent.op < 2 ∨ 5 < r.ent.op → t.mem = b.mem))
  ∧ ∀ (acc : List Nat) (rows cols : List (List Ex)) (i j : Nat), acc.length = 256 → i < 16 → j < 16 →
      ((beatTile true acc rows cols).getD (16 * i + j) 0 : Int)
        = ((acc.getD (16 * i + j) 0 : Int)
            + (((rows.getD i []).zip (cols.getD j [])).map (fun e => e.1.frac.1 * e.2.frac.1)).foldl (· + ·) 0) % 2 ^ 32

/-- O: what the head of the engine queue does when it issues. A phaser operation that is refused raises PHASER_OVERRUN and changes nothing else
(R257); chw makes its acquire (R253); chi arms its context, at once taken when the watermark has been reached (R253, R344); phr, phd, phs, phb
and phw act on their phaser, those that signal after a release (a phd of a wait-only member signals nothing) and phw before an acquire, at the
scope of the phaser (R256, R257); ple and plu
enter the cluster encoder's queue with the block they read now (R258, R303); ckp starts, stops, quiesces or reports (R261, R262, R417 to R419); a
copy, send or recv becomes a transfer of its channel with its descriptor as read now, after the release that ISCOPE names, and a descriptor
fault is kept in it (R245, R247, R250). -/
def Obligations.EngineEffects : Prop :=
  ∀ (s : State) (core : Nat) (e : EEnt),
    let t := s.engAct core e
    let x := e.ctx
    let v := e.ra.toNat
    let imm := e.imm.toNat
    let die := imm / 2 ^ 7 % 2 = 1
    let key := if die then diePhaserKey (dieOfCore core) (v % 256) else cluPhaserKey (cluOfCore core) e.ch
    let sc := if die then 3 else 2
    let own := s.viewOf core x
    (s.phaserRefused core e = true → t = s.raiseOverrun core x)
    ∧ (e.op = 9 → t = s.acquire core (v / 2 ^ 32 % 8))
    ∧ (e.op = 10 →
        let n := (v + imm) % 2 ^ 32
        let now := ((Sp.get {} (s.core core).chans e.ch).watermark + 2 ^ 32 - n) % 2 ^ 32 < 2 ^ 31
        let armed := Sp.put (s.ctx core x).chi e.ch n
        (now → (t.ctx core x).chi = Sp.erase armed e.ch ∧ (t.ctx core x).uip = (s.ctx core x).uip ++ [e.ch])
        ∧ (¬ now → (t.ctx core x).chi = armed ∧ (t.ctx core x).uip = (s.ctx core x).uip)
        ∧ (t.ctx core x).bank = (s.ctx core x).bank ∧ t.mem = s.mem)
    ∧ (e.op = 11 → t = s.phrAct key core x (imm % 4))
    ∧ (s.phaserRefused core e = false →
        (e.op = 12 → t = (if s.departSignals key core x then s.release core x sc none else s).phdAct key core x)
        ∧ (e.op = 13 → t = (s.release core x sc none).signalAct key core x 0)
        ∧ (e.op = 14 → t = (s.release core x sc none).signalAct key core x (v / 2 ^ 16 % 2 ^ 32))
        ∧ (e.op = 15 → t = (s.phwAct key core x).acquire core sc))
    ∧ (e.op = 16 ∨ e.op = 17 →
        (t.clu (cluOfCore core)).enc = (s.clu (cluOfCore core)).enc
          ++ [{ core := core, ctx := x, update := e.op == 17, block := own.scratchDws core v 8, since := s.time }]
        ∧ t.cores = s.cores ∧ t.mem = s.mem)
    ∧ (e.op = 18 →
        let b := own.scratchDws core v 4
        let l := ((s.core core).launch.map s.launch).getD {}
        let c := s.ckp
        let crooked := dwOf b 0 % 4096 ≠ 0 ∨ dwOf b 1 % 4096 ≠ 0 ∨ dwOf b 2 % 4096 ≠ 0
        let beyond := dwOf b 1 = 0 ∨ 2 ^ 57 < dwOf b 0 % 2 ^ 57 + dwOf b 1 ∨ canonicalVa (dwOf b 0) = false
        (imm = 0 → crooked → t = s.ckpRecord core (dwOf b 3) (2 ^ 64 - 1) cALIGNMENT)
        ∧ (imm = 0 → ¬ crooked → beyond → t = s.ckpRecord core (dwOf b 3) (2 ^ 64 - 1) cILLEGAL_MOVE)
        ∧ (imm = 0 → ¬ crooked → ¬ beyond →
            (c.active = true → t = { s with ckp := { c with next := some (core, l.owner, l.root, b), nextQ := [] } })
            ∧ (c.active = false →
                t = { s with ckp := t.ckp } ∧ t.ckp.active = true ∧ t.ckp.vbase = dwOf b 0 % 2 ^ 57 ∧ t.ckp.vlen = dwOf b 1
                ∧ t.ckp.tbase = dwOf b 2 ∧ t.ckp.root = l.root ∧ t.ckp.owner = l.owner ∧ t.ckp.pass = 1 ∧ t.ckp.sent = 0
                ∧ t.ckp.pos = t.ckp.vbase ∧ t.ckp.stop = false ∧ t.ckp.stsCore = core ∧ t.ckp.sts = dwOf b 3 ∧ t.ckp.owed = c.owed))
        ∧ (imm = 1 → c.active = true → t = { s with ckp := { c with stop := true, next := none, nextQ := [] } })
        ∧ (imm = 1 → c.active = false → t = s)
        ∧ (imm = 2 → c.next = none → c.active = true → c.stop = false →
            t = { s with ckp := { c with quies := c.quies ++ [(core, dwOf b 3, c.pass + 1)] } })
        ∧ (imm = 2 ∨ imm = 3 → c.next = none → c.active = false → t = s.ckpRecord core (dwOf b 3) c.lastPass c.lastSent)
        ∧ (imm = 3 → c.active = true → t = s.ckpRecord core (dwOf b 3) c.pass c.sent))
    ∧ (1 ≤ e.op → e.op ≤ 8 →
        let scope := dwOf (own.scratchDws core v 4) (if e.op = 2 then 2 else 3) / 2 ^ 4 % 8
        let r := if e.op = 8 ∨ 4 < scope then s else s.release core x scope none
        ∃ y, t = { r with xfers := Sp.put r.xfers r.nextXfer y, nextXfer := r.nextXfer + 1 }
          ∧ y.core = core ∧ y.ctx = x ∧ y.ch = e.ch ∧ y.id = e.id ∧ y.op = e.op ∧ y.pos = 0 ∧ y.bad = 0 ∧ y.doff = v
          ∧ y.desc = (r.viewOf core x).scratchDws core v (egBlock e.op / 8)
          ∧ (e.op ≤ 6 → y.fault = (r.copyFault y).getD 0) ∧ (7 ≤ e.op → y.fault = (r.tokenFault y).getD 0 ∧ y.len = y.dw 2)
          ∧ (7 ≤ e.op → y.fault ≠ 0 → y.phase = .written ∧ y.status = 0x100 + y.fault)
          ∧ (e.op ≤ 6 → e.op ≠ 6 → y.fault ≠ 0 → y.phase = .written))

namespace Sys2Proof.Claims

/-- A transfer as it goes on from logical byte p. -/
def wentOn (x : Xfer) (p : Nat) : Xfer := { x with pos := p, phase := if x.len ≤ p then .written else .running }

end Sys2Proof.Claims

/-- O: the steps of transfers and encoders complete: a cpe starts once its tag has fired (R335); a piece is copied, its units whole
(R323), or its fault stops the transfer before any of its bytes (R324); a transfer that has written its last byte completes with its record (R247, R251); a payload is
placed in a free slot, or dropped by a ring that is not enabled (R346); recv takes the slot at HEAD (R347); what comes to a stack that is not
ready waits for it (R438, log entry 125); the encoder makes the writes of its command one by one (R305), then takes its next command, and drops
one that has waited for more than 1 ms (R258, R303). The pieces are those of cpy and cpe alone, and of a ring's places the spill region's are
left out. That ring messages go by physical address, HEAD and TAIL count modulo the slots, and any state byte but 0 marks a full slot, is the
model's reading (log entries 13 and 38). -/
def Obligations.TransferSteps : Prop :=
  (∀ (s : State) (tid : Nat) (x : Xfer), Sp.find? s.xfers tid = some x →
    (x.op = 6 → x.phase = .queued → s.canStart tid x = true → x.tagCount ≤ Sp.get 0 (s.ctx x.core x.ctx).tagF x.tag →
      exec (.cpeStart tid) s = .next (s.setXfer tid { x with phase := if x.fault ≠ 0 ∨ x.len = 0 then .written else .running }))
    ∧ (x.op = 1 ∨ x.op = 6 → x.phase = .running →
      let n := x.stepLen
      n ≠ 0 →
      (∀ r p r' q, s.xferAt x x.ssp (x.dw 0) x.pos accRead = .ok (r, p) → r.xferAt x x.dsp (x.dw 1) x.pos accWrite = .ok (r', q) →
        n ≤ p.n → n ≤ q.n →
        let b := r'.xferBytes p n
        exec (.copyPiece tid) s = .next ((b.1.placeWrite x { q with n := n } b.2).setXfer tid (Claims.wentOn x (x.pos + n))))
      ∧ (∀ f, s.xferAt x x.ssp (x.dw 0) x.pos accRead = .error f → exec (.copyPiece tid) s = .next (if f.cause = 0 then s
          else s.setXfer tid { x with fault := f.cause, foff := x.pos, phase := .written }))
      ∧ (∀ r p f, s.xferAt x x.ssp (x.dw 0) x.pos accRead = .ok (r, p) → r.xferAt x x.dsp (x.dw 1) x.pos accWrite = .error f →
        exec (.copyPiece tid) s = .next (if f.cause = 0 then s
          else r.setXfer tid { x with fault := f.cause, foff := x.pos, phase := .written })))
    ∧ (x.phase = .written → x.fault = 0 → x.op ≠ 7 → x.op ≠ 8 → s.canStart tid x = true →
      let r := if x.noRecord then s else s.scratchWrite x.core (cellsAt x.recOff x.record)
      exec (.transferComplete tid) s = .next ({ r with xfers := Sp.erase r.xfers tid }.modCore x.core
        (fun k => k.closeXfer x.ch x.id (decide (x.bad ≠ 0)))))
    ∧ (x.op = 7 ∨ x.op = 8 → s.ringReady (s.ringAt x.tdie x.ring) = false →
      exec (.ringPlacement tid) s = .next s ∧ exec (.recvTake tid) s = .next s)
    ∧ (x.op = 7 → x.phase = .queued → s.canStart tid x = true → (s.die x.tdie).fenced = false → (s.die x.tdie).stopped = false →
      s.ringReady (s.ringAt x.tdie x.ring) = true →
      let b := s.ringAt x.tdie x.ring
      let tail := fld (s.ringDw b 2) 63 32
      let nslot := fld (s.ringDw b 1) 7 0 + 1
      let bs := (s.xferBytes { va := x.dw 0, n := x.len, space := 1, core := x.core, addr := x.dw 0 } x.len).2
      (bitOf (s.ringDw b 1) 8 = false →
        exec (.ringPlacement tid) s = .next ((s.ringDrop b).setXfer tid { x with phase := .written, status := 2 }))
      ∧ (bitOf (s.ringDw b 1) 8 = true → fld (s.ringDw b 5) 31 0 = fld (s.ringDw b 5) 63 32 →
        s.homeByte (s.slotAddr b (tail % nslot) + 8) = 0 →
        exec (.ringPlacement tid) s = .next (((s.ringMessage (s.slotAddr b (tail % nslot)) (dieOfCore x.core) bs).ringSet b 2 true
          ((tail + 1) % nslot)).setXfer tid { x with phase := .written, status := 0 })))
    ∧ (x.op = 8 → x.phase = .queued → s.canStart tid x = true → s.ringReady (s.ringAt x.tdie x.ring) = true →
      let b := s.ringAt x.tdie x.ring
      let head := fld (s.ringDw b 2) 31 0 % (fld (s.ringDw b 1) 7 0 + 1)
      s.homeByte (s.slotAddr b head + 8) ≠ 0 →
      exec (.recvTake tid) s = .next (((s.takeMessage tid x (s.slotAddr b head) 0).ringPut (s.slotAddr b head + 8) [0]).ringSet b 2 false
        ((head + 1) % (fld (s.ringDw b 1) 7 0 + 1)))))
  ∧ ∀ (s : State),
    (∀ clu w rest, (s.clu clu).encOut = w :: rest → exec (.encoderCommandStart clu) s
      = .next ((s.modClu clu (fun k => { k with encOut := rest })).scratchWrite w.1 w.2))
    ∧ (∀ clu c rest, (s.clu clu).encOut = [] → (s.clu clu).enc = c :: rest → exec (.encoderCommandStart clu) s
      = .next (s.modClu clu (fun k => { k with
          enc := rest
          encOut := if c.since + 1000 < s.time then s.statusWrite c.core (dwOf c.block 7) 3 0 0
            else if c.update then s.pluRun c.core c.block else s.pleRun c.core c.block })))
    ∧ (∀ clu c, (s.clu clu).enc.find? (fun c => decide (c.since + 1000 < s.time)) = some c →
      exec (.encoderCommandDrop clu) s = .next ((s.modClu clu (fun k => { k with enc := k.enc.erase c })).encStatus c.core
        (dwOf c.block 7) 3 0 0))

/-- O: the steps that order memory complete: a promotion request is acknowledged when its generation is drained, else starts a drain
(R282); a drain ends (R278), what the core has on its way to other cores having arrived (R281); the acknowledgement completes an apld, or an apcas on the value its location then has, with a DEV acquire
(R281; the value: log entry 96), and a target that does not answer for 100 µs makes it raise PROMOTE_LOST (R235), also where its context has
switched out or is in a handler (R51, R147); a remote element step (at both twins, R319) and a
space-2 store arrive, stores of one context to one byte in their order (R269, R309, R272); an invalidation enters the queue of 16, and takes
effect in every translation cache (R406). -/
def Obligations.OrderSteps : Prop :=
  ∀ (s : State) (core : Nat),
    (∀ p g, s.answers core = true → (s.core core).preqs = [(p, g)] → g ≤ (s.core core).drained →
      exec (.promoteRequestArrival core) s = .next (s.modCore core (fun k =>
        { k with preqs := [], reqsAcked := min 0xFFFF (k.reqsAcked + 1) })))
    ∧ (∀ p g rest, s.answers core = true → (s.core core).preqs = (p, g) :: rest → (s.core core).drained < g →
      (s.core core).drain = none →
      exec (.promoteRequestArrival core) s = .next (s.modCore core (fun k => { k with drain := some g })))
    ∧ (∀ g, (s.core core).drain = some g →
      let r := s.drain core g
      (r.core core).preqs = [] → (r.core core).log.length < 64 →
      exec (.drainComplete core) s = .next (r.modCore core (fun k =>
        { k with drain := none, frozen := if k.frozen = some .logFull then none else k.frozen })))
    ∧ (∀ p, (s.core core).promos.find? (s.acked core) = some p →
      let r := s.modCore core (fun k => { k with promos := k.promos.erase p })
      let ends (a : State) (old : Nat) (mark : Option Dw) : State := a.modCore core (fun k =>
        ((k.setCtx p.ctx ((k.ctx p.ctx).promoResult p (fun f =>
          { f with val := some (.s (BitVec.ofNat 64 old)), mark := mark, arrived := true }))).thaw .data).thaw .promise)
      (p.cas = false → exec (.promoteAckArrival core) s = .next (ends (r.acquire core 3) p.old p.mark))
      ∧ (p.cas = true →
        let v := r.promoAgain core p
        v.1.promoTag core (p.piece core) = none →
        let a := (v.1.modCore core (fun k => { k with promos := k.promos.erase v.2 })).acquire core 3
        exec (.promoteAckArrival core) s = .next (ends
          (if v.2.mark = none ∧ v.2.old = p.cmp.toNat then
            (a.adAgain p.ad p.entry.toNat).atCommit core p.ctx p.rel (p.piece core) (some p.new.toNat) else a) v.2.old v.2.mark)))
    ∧ (∀ p, (s.core core).promos.find? (fun p => !(s.answers p.target) && decide (p.since + 100 ≤ s.time)) = some p → p.target ≠ core →
      let lose (f : Flight) : Flight :=
        if f.promo = some p.no then { f with val := none, mark := none, lost := true, arrived := true, promo := none } else f
      ∃ t, exec (.promoteLost core) s = .next t ∧ (t.core core).promos = (s.core core).promos.erase p
        ∧ (t.ctx core p.ctx).flight = (s.ctx core p.ctx).flight.map lose
        ∧ (t.ctx core p.ctx).shadow = (s.ctx core p.ctx).shadow.map lose
        ∧ (∀ v, (s.ctx core p.ctx).saved = some v → (t.ctx core p.ctx).saved = some { v with flight := v.flight.map lose })
        ∧ (t.ctx core p.ctx).bank = (s.ctx core p.ctx).bank ∧ (t.core core).frozen ≠ some .data
        ∧ (t.core core).frozen ≠ some .promise ∧ t.mem = s.mem)
    ∧ (∀ k x, s.saSteps[k]? = some x → s.saSteps.find? (fun y => y.src == x.src && y.core == x.core && y.row == x.row) = some x →
      exec (.saElementStepArrival k) s = .next ({ s with saSteps := s.saSteps.erase x }.modSaRow x.core x.row (fun a =>
        let r := a.step x.elem x.add x.sat x.nan
        if x.poison ∧ r.valid then { r with poison := true } else r)))
    ∧ (∀ k e, s.s2[k]? = some e → (∀ f, f ∈ s.s2.take k → s2Clash e f = false) → e.2.rel = none → e.2.space ≠ 0 →
      exec (.space2StoreArrival k) s = .next ({ s with s2 := s.s2.eraseIdx k }.scratchWrite e.2.core e.2.cells))
    ∧ (∀ f e, s.s2 = [f, e] → s2Clash e f = true → exec (.space2StoreArrival 1) s = exec (.space2StoreArrival 0) s)
    ∧ (s.xinvs.length < 16 → exec .xinvAll s = .next { s with xinvs := s.xinvs ++ [.all] }
        ∧ (∀ o, exec (.xinvOwner o) s = .next { s with xinvs := s.xinvs ++ [.owner o] })
        ∧ (∀ o vpn, exec (.xinvPage o vpn) s = .next { s with xinvs := s.xinvs ++ [.page o vpn] }))
    ∧ (∀ i rest, s.xinvs = i :: rest →
      ∃ t, exec .xinvComplete s = .next t ∧ t.xinvs = rest ∧ t.mem = s.mem ∧ (∀ k, (t.core k).frozen ≠ some .xinv)
        ∧ (i = .all → t.tlb = [] ∧ t.walks = [])
        ∧ (∀ o, i = .owner o → t.tlb = s.tlb.filter (fun e => e.owner != o) ∧ t.walks = s.walks.filter (fun e => e.owner != o))
        ∧ (∀ o vpn, i = .page o vpn → t.tlb = s.tlb.filter (fun e =>
            !(e.owner == o && decide (e.va ≤ vpn * 4096 % 2 ^ 57) && decide (vpn * 4096 % 2 ^ 57 < e.va + e.size)))))

/-- O: the steps of queues and launches complete: a notify (R361); a packet that is handed over is read (R360); a barrier whose condition
holds completes, one whose condition does not hold waits, one whose address faults completes with the cause (R365); a waiting launch is
placed and its cores hold it (R369, R372); a core group ends (R143); a launch that is over frees its cores and completes (R369); a launch is
stopped and saved (R381; the arrival it keeps: log entry 124), killed when its records do not fit and the device stops (R382, R428), resumes (R383), reaches its quantum (R377) and its energy budget (R379).
What comes to a stack that is not ready waits for it (R438, log entry 125). That shares send their energy and take their class by messages
(log entry 53), and that placements are numbered, a resumption counting as one (log entry 46), is the model's reading. -/
def Obligations.LaunchSteps : Prop :=
  ∀ (s : State) (n die q : Nat),
    let l := s.launch n
    (∀ size off v, die < 4 → q < 256 → 1 ≤ size → size + off ≤ 8 →
      let d := s.die die
      let w := BitVec.ofNat 64 (mergeBytes (Sp.get 0 d.notify q).toNat off size v.toNat)
      let z := s.qs die q
      ∃ t, exec (.queueNotify die q size off v) s = .next t ∧ (t.die die).notify = Sp.set 0 d.notify q w
        ∧ (t.die die).qstate = Sp.set {} d.qstate q { z with widx := max z.widx w.toNat, stalled := false }
        ∧ (∀ e, e ≠ die → t.die e = s.die e) ∧ t.cores = s.cores ∧ t.mem = s.mem)
    ∧ (∀ r bs r', s.lpReady die = true → (s.die die).served q = true → (s.qs die q).stalled = false → (s.qs die q).barrier = none →
      (s.die die).readidx q < (s.qs die q).widx →
      let d := s.die die
      let ag := supervisorAgent (d.qowner q) (d.ptroot q)
      let va := (d.rbase q + 64 * (d.readidx q % 2 ^ d.sz q)) % 2 ^ 64
      State.readV ag accRead va 64 s.l2Invalidate = .ok (r, bs) → (bs.headD 0).toNat % 16 ≠ 0 →
      r.recordWaits (packetOf die q (d.rights q) (dwordsOf 8 bs) none) = false →
      r.writeV ag va [bs.headD 0 &&& 0xF0] = .ok r' →
      exec (.packetRead die q) s
        = .next ((r'.modDie die (fun e => e.setQdw q 3 ((e.readidx q + 1) % 2 ^ 64))).takePacket die q (d.rights q)
            (dwordsOf 8 bs) none))
    ∧ ((s.qs die q).barrier = some n → s.lpReady die = true → s.ordOk n l = true → s.signalWaits l = false →
      (∀ r bs, State.readV l.agent accRead (dwOf l.packet 1) 8 s.l2Invalidate = .ok (r, bs) →
        exec (.barrierPoll die q) s = .next (if l.barrierMet (natOfBytes bs) then r.finishPacket n l 0 else r))
      ∧ (∀ f, State.readV l.agent accRead (dwOf l.packet 1) 8 s.l2Invalidate = .error f →
        exec (.barrierPoll die q) s = .next (if f.cause = 0 then s else s.l2Invalidate.finishPacket n l f.cause)))
    ∧ (∀ gs b, s.lpReady l.die = true → s.waitsPlace (n, l) = true → s.itsTurn (n, l) = true → s.sectionWaits l = false →
      s.placement l = some (gs, b) →
      ∃ t, exec (.launchPlace n) s = .next t ∧ (t.launch n).phase = .running ∧ (t.launch n).groups = gs ∧ (t.launch n).placedAt = s.time
        ∧ (t.launch n).placedNo = s.nextPlace ∧ t.nextPlace = s.nextPlace + 1 ∧ (t.launch n).energy = 0 ∧ (∀ g, g ∈ gs → (t.core g.core).launch = some n ∧ (t.core g.core).prevOwner = some l.owner))
    ∧ (∀ core, let k := s.core core
      k.launch ≠ none → k.groupDone = false → k.ctxs ≠ [] → k.allHalted = true → k.mq = [] → k.eq = [] → k.mrun = none →
      k.promos = [] → s.coreQuiet core = true →
      exec (.coreGroupEnd core) s = .next ((s.kernelEndRelease core).modCore core (fun k => { k with groupDone := true, run := none })))
    ∧ ((s.die l.die).fenced = false → s.launchOver n l = true → s.signalWaits l = false → l.phase ≠ .waiting →
      exec (.launchComplete n) s = .next ((s.freeCores n).finishPacket n l l.status))
    ∧ (l.groups ≠ [] → l.status = 0 → l.phase = .running → s.mustPreempt n l = true →
      (s.recordsFit n l = true →
        let r := (s.stopIssue n l).modLaunch n (fun l =>
          { l with phase := .stopping, saveAt := s.saveFree l.die l.q, saveLen := s.recordsBytes n l, heldNo := s.nextLaunch })
        exec (.preemption n) s = .next (if r.quiet n (r.launch n) then r.saveLaunch n else r))
      ∧ (s.recordsFit n l = false → s.hardTrip = true ∨ s.susp = .suspending → exec (.preemption n) s = .next (s.killLaunch n 32))
      ∧ (s.recordsFit n l = false → s.hardTrip = false → s.susp ≠ .suspending → exec (.preemption n) s = .next s))
    ∧ (l.groups ≠ [] → l.status = 0 → l.phase = .stopping → s.quiet n l = true → exec (.preemption n) s = .next (s.saveLaunch n))
    ∧ ((s.lpReady l.die = true ∧ s.itsTurn (n, l) = true) ∨ s.susp = .resuming → s.canResume l = true →
      ∃ t, exec (.resumption n) s = .next t ∧ (t.launch n).phase = .running ∧ (t.launch n).saved = [] ∧ (t.launch n).placedAt = s.time
        ∧ (t.launch n).placedNo = s.nextPlace ∧ (∀ g, g ∈ l.savedGroups → (t.core g.core).prevOwner = some l.owner))
    ∧ (l.phase = .running → l.groups ≠ [] → (s.die l.die).quantumOf l.cls ≠ 0 → l.placedAt + (s.die l.die).quantumOf l.cls ≤ s.time →
      exec (.quantumExpiry n) s = .next (s.modLaunch n (fun l => { l with expired := true })))
    ∧ (l.origin = none → l.ebudget ≠ 0 → l.ebudget * 15625000 < l.energy →
      let r := l.shares.foldl (fun a d => a.sendOrbit (.shareClass d Config.devId n (min 3 (l.cls + 1)))) s
      exec (.energyBudgetExceeded n) s = .next (r.modLaunch n (fun l => { l with cls := min 3 (l.cls + 1), energy := 0 })))
    ∧ (∀ o, l.origin = some o → l.ebudget ≠ 0 → l.energy ≠ 0 →
      exec (.energyBudgetExceeded n) s = .next ((s.sendOrbit (.energy o.1 o.2 Config.devId l.energy)).modLaunch n (fun l => { l with energy := 0 })))

namespace Sys2Proof.Claims

/-- Dword i of a packet or record. -/
def dw (pk : List Dw) (i : Nat) : Nat := (pk.getD i 0).toNat
/-- Bits [hi:lo] of dword i. -/
def fd (pk : List Dw) (i hi lo : Nat) : Nat := bits (dw pk i) hi lo

/-- Check 1 of R367 on a packet: its type, its reserved fields (R363 to R365), its counts (R364). -/
def badFields (pk : List Dw) : Prop :=
  2 < fd pk 0 3 0 ∨ fd pk 0 31 12 ≠ 0 ∨ fd pk 0 7 7 ≠ 0
    ∨ (fd pk 0 3 0 = 1 ∧ (fd pk 3 63 26 ≠ 0 ∨ fd pk 4 63 44 ≠ 0 ∨ fd pk 4 31 22 ≠ 0 ∨ fd pk 4 15 9 ≠ 0 ∨ fd pk 5 63 32 ≠ 0 ∨ 64 < fd pk 3 22 16 ∨ 16 < fd pk 3 15 11
        ∨ 4 < fd pk 3 10 8 ∨ (if fd pk 0 10 10 = 1 then 8 else 16) < fd pk 3 7 3 ∨ 4 < fd pk 3 2 0 ∨ 32 < fd pk 4 21 16 ∨ 256 < fd pk 4 8 0))
    ∨ (fd pk 0 3 0 = 2 ∧ (fd pk 3 63 2 ≠ 0 ∨ dw pk 4 ≠ 0 ∨ dw pk 5 ≠ 0))

/-- Check 2: KARG or WADDR, and SIGADDR. -/
def badAddresses (pk : List Dw) : Prop := dw pk (if bits (dw pk 0) 3 0 = 1 then 2 else 1) % 8 ≠ 0 ∨ dw pk 6 % 16 ≠ 0

/-- A count of the kernel packet is 0 (R371). -/
def someZero (pk : List Dw) : Prop :=
  fd pk 3 23 23 = 0 ∨ fd pk 3 22 16 = 0 ∨ fd pk 3 15 11 = 0 ∨ fd pk 3 10 8 = 0 ∨ fd pk 3 7 3 = 0 ∨ fd pk 3 2 0 = 0

/-- Checks 5 and 6 of R367, on the kernel record r (R366) and the number of devices of DEVMASK. -/
def badRecord (r : List Dw) : Prop := dw r 0 / 2 ^ 32 ≠ 0 ∨ dw r 1 ≠ 0 ∨ dw r 2 ≠ 0 ∨ dw r 3 ≠ 0
def tooMuch (pk r : List Dw) (devices : Nat) : Prop :=
  bits (dw r 0) 22 20 < fd pk 3 2 0 ∨ bits (dw r 0) 31 23 < fd pk 4 8 0 ∨ 2 ^ 20 < bits (dw r 0) 19 0 + 2 ^ 17 * (fd pk 3 25 24 + 1)
    ∨ (fd pk 4 21 16 ≠ 0 ∧ fd pk 4 43 32 = 0) ∨ devices < fd pk 3 22 16

/-- The number of devices of a DEVMASK (R359). -/
def devices (mask : Nat) : Nat := ((List.range 64).filter (fun i => mask.testBit i)).length

/-- Register r of a context that starts with KARG v (R375). -/
def atStart (v : Dw) (r : Nat) : Val := if r = 1 then .s v else (hardWiredAt r).getD (asZero r)
where
  hardWiredAt (r : Nat) : Option Val := if r = 0x80 then some (.m (BitVec.allOnes 128)) else if r = 0xA0 then some (.g 1) else none
  asZero (r : Nat) : Val := if r < 0x40 then .s 0 else if r < 0x80 then .v 0 else if r < 0x90 then .m 0 else if r < 0xA0 then .s 0 else .g 0

end Sys2Proof.Claims

/-- O: packets and starts. What a packet takes from its queue's descriptor (R359): owner, root, privilege, DEVMASK and PRIOMAX. A packet that a
launch processor takes becomes the queue's newest launch, of that owner, root and privilege, its class raised to PRIOMAX (R363, R400). The checks of R367 are made in their order; the first that fails refuses it: it is over, with the
status of the check, and holds no queue. One that passes waits, a barrier holding its queue (R365), a kernel with a count of 0 without its record
being read (R371). A completion writes 16 bytes at SIGADDR, the status with LAUNCHID and then SIGVAL, and raises the queue's vector; one that
translation refuses sets LASTERR (R370). A group that starts (R375): each of its NCTX contexts at ENTRY with KARG in s1 and every other register
zero or hard-wired, the queue's privilege, its indexes, and everything else as reset leaves it; empty queues and rows; NCH channels bound to the
engines of EMASK in turn (R374); tiles and the scratchpad above SCRATCH kept for the same owner alone, the scratch section and zeros below. That a share enters no queue here is
R386; that the group's first context to run is 0 is the model's choice (log entry 101). -/
def Obligations.PacketsAndStarts : Prop :=
  (∀ (d : Die) (q : Nat), d.rights q
    = { owner := BitVec.ofNat 8 (Claims.bits (d.qdw q 2) 15 8), root := Claims.bits (d.qdw q 1) 51 0
        priv := decide (Claims.bits (d.qdw q 2) 16 16 = 1), devmask := d.qdw q 5, cls := Claims.bits (d.qdw q 2) 18 17 })
  ∧ (∀ (s : State) (die q : Nat) (w : QueueRights) (pk : List Dw) (o : Option (Nat × Nat)), pk.length = 8 →
    Claims.bits (Claims.dw pk 0) 3 0 ≠ 0 →
    let n := s.nextLaunch
    let t := s.takePacket die q w pk o
    let l := t.launch n
    let kernel : Prop := Claims.bits (Claims.dw pk 0) 3 0 = 1
    let refused (c : Nat) : Prop := l.status = c ∧ l.empty = true ∧ l.phase = .running ∧ (t.qs die q).barrier = (s.qs die q).barrier
    let ag : Agent := { core := none, owner := w.owner, root := w.root, priv := true }
    let entry := Claims.dw pk 1
    l.packet = pk ∧ l.die = die ∧ l.q = q ∧ l.owner = w.owner ∧ l.root = w.root ∧ l.priv = w.priv ∧ l.devmask = w.devmask ∧ l.origin = o
      ∧ l.cls = max (Claims.bits (Claims.dw pk 0) 9 8) w.cls ∧ t.nextLaunch = n + 1
      ∧ (t.qs die q).open_ = (if o = none then (s.qs die q).open_ ++ [n] else (s.qs die q).open_)
      ∧ l.groups = [] ∧ t.cores = s.cores
      ∧ (Claims.badFields pk → refused 2)
      ∧ (¬ Claims.badFields pk → Claims.badAddresses pk → refused 9)
      ∧ (¬ Claims.badFields pk → ¬ Claims.badAddresses pk →
        (¬ kernel → l.phase = .waiting ∧ l.barrier = true ∧ l.status = 0
          ∧ (t.qs die q).barrier = if o = none then some n else (s.qs die q).barrier)
        ∧ (kernel → (t.qs die q).barrier = (s.qs die q).barrier)
        ∧ (kernel → Claims.someZero pk → l.phase = .waiting ∧ l.empty = true ∧ l.status = 0 ∧ t.mem = s.mem)
        ∧ (kernel → ¬ Claims.someZero pk →
          (entry % 32 ≠ 0 → refused 9)
          ∧ (entry % 32 = 0 →
            (∀ f, State.readV ag accRecord ((entry + 2 ^ 64 - 32) % 2 ^ 64) 32 s = .error f → f.cause ≠ 0 → refused f.cause)
            ∧ ∀ u bs, State.readV ag accRecord ((entry + 2 ^ 64 - 32) % 2 ^ 64) 32 s = .ok (u, bs) →
              let r := [0, 8, 16, 24].map (fun k => BitVec.ofNat 64 (natOfBytes ((bs.drop k).take 8)))
              (Claims.badRecord r → refused 2)
              ∧ (¬ Claims.badRecord r → Claims.tooMuch pk r (Claims.devices w.devmask) → refused 6)
              ∧ (¬ Claims.badRecord r → ¬ Claims.tooMuch pk r (Claims.devices w.devmask) →
                  l.phase = .waiting ∧ l.empty = false ∧ l.barrier = false ∧ l.status = 0 ∧ l.scratch = Claims.bits (Claims.dw r 0) 19 0)))))
  ∧ (∀ (s : State) (n status : Nat) (l : Launch), l.origin = none → l.noSignal = false →
    Sp.wf ({} : QState) (s.die l.die).qstate = true →
    let a := Claims.dw l.packet 6
    let u := if l.rfs then s.l2WriteBack else s
    let ag : Agent := { core := none, owner := l.owner, root := l.root, priv := true }
    let bs := bytesOf 8 (Claims.dw l.packet 0 / 2 ^ 32 * 2 ^ 32 + status % 256) ++ bytesOf 8 (Claims.dw l.packet 7)
    let t := s.finishPacket n l status
    (t.launch n).phase = .done ∧ (t.launch n).status = status ∧ n ∉ (t.qs l.die l.q).open_ ∧ (t.qs l.die l.q).barrier ≠ some n
      ∧ (a = 0 → t.mem = u.mem ∧ t.msix = s.msix)
      ∧ (∀ w, a ≠ 0 → State.writeV u ag a bs = .ok w → t.mem = w.mem ∧ t.l2 = w.l2 ∧ t.tags = w.tags ∧ t.msix = (w.queueVec l.die l.q).msix)
      ∧ (∀ f, a ≠ 0 → State.writeV u ag a bs = .error f → f.cause ≠ 0 → (t.die l.die).qdw l.q 4 / 2 ^ 32 = f.cause % 256 ∧ t.mem = u.mem))
  ∧ ∀ (s : State) (n : Nat) (l : Launch) (sect : List Byte) (g : Group), g.twin = none → Memory.wf (s.core g.core).scratch = true →
    let f := Claims.fd l.packet
    let t := s.startGroup n l sect g
    let k := s.core g.core
    let c := t.core g.core
    let keep : Prop := k.prevOwner = some l.owner
    let engines := (List.range 12).filter (fun e => (f 4 43 32).testBit e)
    let fresh (y : Nat) (b : Bank) : Ctx :=
      { phase := .ready, launch := n, pc := l.packet.getD 1 0, priv := l.priv, bank := b, ix := { g.ix with ctx := y }
        setPrev := (s.pair (pairKey g.clu g.logical)).cur }
    (∀ y, y < f 3 2 0 → ∃ b : Bank, c.ctx y = fresh y b
        ∧ ∀ r, r ≤ 0xA3 → b.read r = Claims.atStart (l.packet.getD 2 0) r ∧ b.mark r = none)
      ∧ (∀ y, f 3 2 0 ≤ y → (c.ctx y).phase = .off) ∧ c.run = some 0 ∧ c.latches = [] ∧ c.frozen = none ∧ c.stalled = false
      ∧ c.mq = [] ∧ c.eq = [] ∧ c.mrun = none ∧ c.marks = [] ∧ c.sa = [] ∧ c.comps = [] ∧ c.launch = some n ∧ c.groupDone = false
      ∧ c.prevOwner = some l.owner ∧ c.logical = g.logical ∧ c.l1sz = f 3 25 24 ∧ c.l1 = []
      ∧ (∀ i, i < f 4 21 16 → Sp.find? c.chans i
          = some { engine := engines.getD ((16 * (g.clu % 16) + g.logical + i) % engines.length) 0 })
      ∧ (∀ i, f 4 21 16 ≤ i → Sp.find? c.chans i = none)
      ∧ (keep → c.tiles = k.tiles) ∧ (¬ keep → c.tiles = [])
      ∧ (∀ a, a < l.scratch → Memory.read c.scratch a = sect.getD a 0)
      ∧ (∀ a, l.scratch ≤ a → (keep → a < k.scratchSize → Memory.read c.scratch a = Memory.read k.scratch a)
          ∧ (¬ keep ∨ k.scratchSize ≤ a → Memory.read c.scratch a = memDefault))
      ∧ (t.pair (pairKey g.clu g.logical)).mode = (if f 0 10 10 = 1 then 1 else 0)

namespace Sys2Proof.Claims

/-- The cluster after TESTCTL's fields are written. -/
def ctlWritten (c : Cluster) (v : Dw) : Cluster := { c with abortPri := v.toNat / 2 ^ 12 % 4, ctlCore := v.toNat / 16 % 32 }

end Sys2Proof.Claims

/-- O: the steps of the core map, the test controller, the image and the checkpoint streamer complete: a valid map is taken, another sets ERR
(R154); HOLD, START, ABORT and RELEASE where their row allows them, and HOLD refused of a core that is neither mapped nor spare (R155); a held
core's last context has ended (R155); the pattern ends in pass, or in fail with the core retired, its place taken by the spare core or left
empty, and a repair record posted (R156); the firmware rewrites the image (R436, R437); the service die boots with the valid image of the higher SEQ
sum, and a function applies its part, whose reserved bits read 0, and reports ready (R12, R438); the streamer passes over what is not mapped and over
a clean page, sends a dirty one after its D is cleared and its lines are written back (R408), and a pass ends with its record, the last one after a
QUIESCE with that of the QUIESCE (R417, R418). The model's readings are: PCSTATE as a write of the map leaves it (log entry 87); a core after a test or
an abort as reset leaves it but for the promotion requests it owes (log entry 45), and one that still drains when its test is aborted as it was (log
entry 110); the repair and tuning words of a stack and a link (log entry 73); the flash slot that a rewrite takes (log entry 109); that a
power-off is followed by the same boot (log entry 50), that of a leaf that lies in the range in part just that part is sent (log entry 88), what
the signature is (log entry 3), and what image the firmware's rewrite renews (log entry 49). -/
def Obligations.MaintenanceSteps : Prop :=
  ∀ (s : State) (clu : Nat) (v : Dw),
    let c := s.clu clu
    let p := v.toNat / 16 % 32
    let set : Cluster := Claims.ctlWritten c v
    (∀ hi : Bool, (let lo' := if hi then c.cmapLo.toNat else v.toNat % 2 ^ 60
        let hi' := if hi then v.toNat % 2 ^ 20 else c.cmapHi.toNat
        exec (.cmapWrite clu hi v) s = .next (s.setClu clu
          (if c.mapOk lo' hi' then { c with cmapLo := BitVec.ofNat 64 lo', cmapHi := BitVec.ofNat 64 hi' } else { c with terr := true }))))
    ∧ (c.tstate = .idle ∨ c.tstate = .pass ∨ c.tstate = .fail ∨ c.tstate = .aborted →
      let back : Cluster := if c.tstate = .pass then set.setPc c.tcore c.before else set
      (p ≤ 16 → back.pc p = 1 → exec (.testHold clu v) s = .next (s.setClu clu
        { ({ back with tcore := p, before := 1 } : Cluster).setPc p 3 with tstate := .held }))
      ∧ (p ≤ 16 → back.pc p = 0 → exec (.testHold clu v) s = .next (s.setClu clu { back with tcore := p, before := 0, tstate := .draining }))
      ∧ (16 < p ∨ 2 ≤ back.pc p → exec (.testHold clu v) s = .next (s.setClu clu { set with terr := true })))
    ∧ (c.tstate = .held → exec (.testStart clu v) s = .next (s.setClu clu { set with tstate := .running, tstart := s.time, elapsed := 0 }))
    ∧ (c.tstate = .draining ∨ c.tstate = .held ∨ c.tstate = .running →
      ∃ t, exec (.testAbort clu v) s = .next t ∧ (t.clu clu).tstate = .aborted
        ∧ (c.tstate = .draining → t.cores = s.cores)
        ∧ (c.tstate ≠ .draining → t.core (coreKey clu c.tcore) = { preqs := (s.core (coreKey clu c.tcore)).preqs })
        ∧ (t.clu clu).pcstate = (set.setPc c.tcore c.before).pcstate
        ∧ (∀ k, k ≠ coreKey clu c.tcore → t.core k = s.core k) ∧ t.mem = s.mem)
    ∧ (c.tstate = .held ∨ c.tstate = .pass → exec (.testRelease clu v) s = .next (s.setClu clu
        { set.setPc c.tcore c.before with tstate := .idle }))
    ∧ (c.tstate = .draining → (s.core (coreKey clu c.tcore)).launch = none → s.parkedOn (coreKey clu c.tcore) = false →
      exec (.testDrainComplete clu) s = .next (s.setClu clu { c.setPc c.tcore 3 with tstate := .held }))
    ∧ (c.tstate = .running → c.tstart + 200 ≤ s.time →
      let sig := Config.scanSignature clu c.tcore c.runs
      let out := c.setPc c.tcore 2
      ∃ t, exec (.testPatternComplete clu) s = .next t ∧ (t.clu clu).sig = sig ∧ (t.clu clu).runs = c.runs + 1
        ∧ t.core (coreKey clu c.tcore) = { preqs := (s.core (coreKey clu c.tcore)).preqs }
        ∧ (∀ k, k ≠ coreKey clu c.tcore → t.core k = s.core k)
        ∧ (sig = c.exp → (t.clu clu).tstate = .pass ∧ (t.clu clu).pcstate = c.pcstate ∧ (t.clu clu).cmapLo = c.cmapLo
            ∧ (t.clu clu).cmapHi = c.cmapHi ∧ t.msix = s.msix)
        ∧ (sig ≠ c.exp → (t.clu clu).tstate = .fail ∧ (t.clu clu).repair = true ∧ t.msix = (s.sendVec 2047).msix
            ∧ (c.logicalOf c.tcore = none →
                (t.clu clu).pcstate = out.pcstate ∧ (t.clu clu).cmapLo = c.cmapLo ∧ (t.clu clu).cmapHi = c.cmapHi)
            ∧ (∀ n, c.logicalOf c.tcore = some n → out.pc 16 = 1 →
                (t.clu clu).pcstate = (out.setPc 16 0).pcstate ∧ (t.clu clu).cmapLo = (c.setEntry n 16).cmapLo
                  ∧ (t.clu clu).cmapHi = (c.setEntry n 16).cmapHi)
            ∧ (∀ n, c.logicalOf c.tcore = some n → out.pc 16 ≠ 1 →
                (t.clu clu).pcstate = out.pcstate ∧ (t.clu clu).cmapLo = (c.setEntry n 31).cmapLo
                  ∧ (t.clu clu).cmapHi = (c.setEntry n 31).cmapHi)))
    ∧ (c.repair = true →
      let i := s.image.getD {}
      let i' : Image := { i with
        signed := true, badCrc := []
        recs := Sp.put i.recs clu { lo := c.cmapLo, hi := c.cmapHi, pcstate := c.imagePc, seq := (i.record clu).seq + 1 } }
      exec (.configImageRewrite clu) s = .next { s.setClu clu { c with repair := false } with
        flash := Sp.put s.flash (1 - s.pickImage.getD 1) i', image := some i' })
    ∧ (s.booted = false ∨ (s.powerOff = true ∧ s.susp ≠ .suspended) →
      exec .deviceBoot s = .next { s.lasting with booted := true, image := s.pickImage.map s.flashImage })
    ∧ (s.pickImage = none ↔ (s.flashImage 0).valid = false ∧ (s.flashImage 1).valid = false)
    ∧ (∀ k, s.pickImage = some k → k < 2 ∧ (s.flashImage k).valid = true
        ∧ ∀ j, j < 2 → (s.flashImage j).valid = true → (s.flashImage j).seqSum ≤ (s.flashImage k).seqSum)
    ∧ (∀ die k i, s.image = some i → s.booted = true → s.powerOff = false → die < 4 → k < 39 → s.dieDown die = false →
      s.susp = .running ∨ s.susp = .resuming → bitOf (s.die die).ready.toNat k = false →
      ∃ t, exec (.functionReady die k) s = .next t ∧ (t.die die).ready = (s.die die).ready ||| BitVec.ofNat 39 (2 ^ k)
        ∧ (k < 16 → (t.clu (16 * die + k)).pcstate.toNat = (i.record (16 * die + k)).pcstate.toNat % 2 ^ 34
            ∧ (t.clu (16 * die + k)).cmapLo.toNat = (i.record (16 * die + k)).lo.toNat % 2 ^ 60
            ∧ (t.clu (16 * die + k)).cmapHi.toNat = (i.record (16 * die + k)).hi.toNat % 2 ^ 20)
        ∧ (16 ≤ k → k < 20 → Sp.find? (t.die die).repairs (k - 16) = some (Sp.get 0 i.hbm (4 * die + (k - 16))))
        ∧ (33 ≤ k → Sp.find? (t.die die).tuning (k - 33) = some (Sp.get 0 i.links (6 * die + (k - 33))))
        ∧ t.mem = s.mem)
    ∧ (∀ die k, s.image = none → exec (.functionReady die k) s = .next s)
    ∧ (s.streamerOn = true → s.ckp.active = true → s.ckp.stop = false → s.ckp.next = none → s.ckp.pos < s.ckp.vbase + s.ckp.vlen →
      (∀ size, s.leafFrom s.ckp.pos 5 0 s.ckp.root = .hole size →
        exec .ckpPage s = .next { s with ckp := { s.ckp with pos := s.ckp.pos / size * size + size } })
      ∧ (s.leafFrom s.ckp.pos 5 0 s.ckp.root = .awaited → exec .ckpPage s = .next s)
      ∧ (∀ lvl e ea, s.leafFrom s.ckp.pos 5 0 s.ckp.root = .leaf lvl e ea →
        let size := leafSize lvl e
        let va := s.ckp.pos / size * size
        let lo := max va s.ckp.vbase
        let hi := min (va + size) (s.ckp.vbase + s.ckp.vlen)
        let past : State := { s with ckp := { s.ckp with pos := va + size } }
        (s.ckp.owed = [] → pteD (s.homeDw (adAddr lvl e ea)) = false → exec .ckpPage s = .next past)
        ∧ (pteD (s.homeDw (adAddr lvl e ea)) = true → paOff (leafPa lvl e lo) = false →
          leafCheck s.domain (supervisorAgent s.ckp.owner s.ckp.root) accRead lvl e ea = none →
          past.sendWaits e lo hi (leafPa lvl e lo) = false →
          let r := (past.adUpdate accRead lvl e ea).1.ckpClear lvl e ea va size
          exec .ckpPage s = .next ((r.ckpSend e lo hi (leafPa lvl e lo)).ckpAfter))))
    ∧ (s.streamerOn = true → s.ckp.active = true → s.ckp.vbase + s.ckp.vlen ≤ s.ckp.pos → s.ckp.next = none → s.ckp.stop = false →
      let r := s.ckpRecord s.ckp.stsCore s.ckp.sts s.ckp.pass s.ckp.sent
      let ended : Ckp := { s.ckp with
        lastPass := s.ckp.pass, lastSent := s.ckp.sent, pos := s.ckp.vbase, sent := 0, pass := s.ckp.pass + 1, quies := [] }
      (s.ckp.quies = [] → exec .ckpPassEnd s = .next { r with ckp := ended })
      ∧ (∀ core sts, s.ckp.quies = [(core, sts, s.ckp.pass)] →
          exec .ckpPassEnd s = .next { r.ckpRecord core sts s.ckp.pass s.ckp.sent with ckp := { ended with active := false } }))

/-- O: errors, heartbeats, supply and heat: a corrected error counts in CE and changes nothing else, an uncorrectable one marks its granule
(R409); scrubbing changes no value (R416); BEAT rises and is heard, and a third miss fences a die (R422); sag, over-current and their ends, a
kill of R385 for every 100 µs that an excess lasts (R384, R425, R426; the time of the next, also where no launch is there to kill, is log entry
46); CEIL falls every 1 ms at or above 95 °C and rises again every 10 ms to what was written (R427); the hard trip (R428; the bits of the island:
log entry 41); the power-off, which keeps HBM, and of a suspended device everything (R429, R433), and the launches whose records are complete,
with what else outlasts it (the model's reading, log entry 50). -/
def Obligations.ErrorAndPowerSteps : Prop :=
  ∀ (s : State) (die isl : Nat), die < 4 → isl < 4 →
    let x := (s.die die).island isl
    let hot (i : Island) : Island := if i.hot then i else { i with soft := true, hot := true, recovering := false, turnAt := s.time }
    (exec (.eccCorrect die) s = .next (s.modDie die (fun d => { d with ce := min 0xFFFFFFFF (d.ce + 1) })))
    ∧ (∀ g, isHbm (32 * g) = true → paNorm (32 * g) = 32 * g → s.poison.contains g = false →
      ∃ t, exec (.poisonMark (.mem g)) s = .next t ∧ t.poison = addMark s.poison g ∧ t.mem = s.mem ∧ t.cores = s.cores
        ∧ (t.die (stackOf (32 * g) / 4)).ue = min 0xFFFF ((s.die (stackOf (32 * g) / 4)).ue + 1))
    ∧ (∀ core g, (s.core core).launch = none → (s.core core).scratchPoison.contains g = false → 32 * g < (s.core core).scratchSize →
      ∃ t, exec (.poisonMark (.scratch core g)) s = .next t
        ∧ t.core core = { s.core core with scratchPoison := addMark (s.core core).scratchPoison g } ∧ t.mem = s.mem
        ∧ (t.die (dieOfCore core)).ue = min 0xFFFF ((s.die (dieOfCore core)).ue + 1))
    ∧ (∀ gs, ∃ t, exec (.scrubRow die gs) s = .next t ∧ t.mem = s.mem ∧ t.cores = s.cores ∧ t.l2 = s.l2)
    ∧ (s.powerOff = false → s.dieDown die = false →
      ∃ t, exec (.heartbeatSend die) s = .next t ∧ (t.die die).beat = ((s.die die).beat + 1) % 2 ^ 32
        ∧ (∀ d, d < 4 → d ≠ die → (t.die d).heard = (s.die d).heard ||| BitVec.ofNat 4 (2 ^ die)) ∧ t.mem = s.mem)
    ∧ (s.powerOff = false → s.dieDown die = false →
      ∃ t, exec (.heartbeatCheck die) s = .next t ∧ (t.die die).heard = 0
        ∧ ((∀ d, d < 4 → d ≠ die → bitOf (s.die die).heard.toNat d = true) →
            (∀ d, (t.die d).fenced = (s.die d).fenced) ∧ t.launches = s.launches ∧ t.mem = s.mem)
        ∧ (∀ d, d < 4 → d ≠ die → (s.die d).fenced = false → bitOf (s.die die).heard.toNat d = false → 2 ≤ Sp.get 0 (s.die die).misses d →
            (t.die d).fenced = true))
    ∧ (s.dieDown die = false →
      ∃ t, exec (.dieStopsAnswering die) s = .next t ∧ (t.die die).stopped = true
        ∧ (∀ k, dieOfCore k ≠ die → t.core k
            = if (s.core k).frozen = some .stackWait then { s.core k with frozen := none } else s.core k)
        ∧ (∀ c, dieOfClu c = die → (t.clu c).enc = [] ∧ (t.clu c).encOut = [])
        ∧ (∀ k c, Sp.find? s.cores k = some c → dieOfCore k = die → (t.core k).frozen = some .stop ∧ (t.core k).mq = [] ∧ (t.core k).eq = [])
        ∧ t.mem = s.mem)
    ∧ (x.sag = false →
      ∃ t, exec (.supplySag die isl) s = .next t ∧ (t.die die).islands = Sp.set {} (s.die die).islands isl { x with sag := true }
        ∧ (t.die die).sags = min 0xFFFF ((s.die die).sags + 1) ∧ t.mem = s.mem ∧ t.cores = s.cores)
    ∧ exec (.sagEpisodeEnd die isl) s = .next (s.modIsland die isl (fun i => { i with sag := false }))
    ∧ (x.oc = false → exec (.overCurrent die isl) s = .next (s.modIsland die isl (fun i => { i with oc := true, ocAt := s.time })))
    ∧ exec (.overCurrentClears die isl) s = .next (s.modIsland die isl (fun i => { i with oc := false }))
    ∧ (x.oc = true → x.ocAt + 100 ≤ s.time → (∀ j, j < isl → ((s.die die).island j).oc = false) →
      let r := s.modIsland die isl (fun i => { i with ocAt := i.ocAt + 100 })
      (∀ n, s.powerVictim die = some n →
        exec (.overCurrentKill die) s = .next ((r.killLaunch n 32).modDie die (fun d => { d with kills := min 0xFFFF (d.kills + 1) })))
      ∧ (s.powerVictim die = none → exec (.overCurrentKill die) s = .next r))
    ∧ exec (.softTrip die isl) s = .next (s.modIsland die isl hot)
    ∧ (x.soft = true →
      exec (.softTripRecovery die isl) s = .next (s.modIsland die isl (fun i =>
        { i with soft := false, hot := false, hard := false, recovering := true, turnAt := s.time })))
    ∧ (x.hot = true → x.turnAt + 1000 ≤ s.time →
      ∃ t, exec (.ceilStepDown die isl) s = .next t ∧ (∀ p, p ∈ islandPairs die isl → (t.pair p).ceil = (s.pair p).ceil - 1)
        ∧ (∀ p, p ∉ islandPairs die isl → t.pair p = s.pair p) ∧ t.cores = s.cores ∧ t.mem = s.mem)
    ∧ (x.recovering = true → x.turnAt + 10000 ≤ s.time →
      ∃ t, exec (.ceilStepUp die isl) s = .next t
        ∧ (∀ p, p ∈ islandPairs die isl → (t.pair p).ceil = if (s.pair p).ceil < (s.pair p).ceilSet then (s.pair p).ceil + 1 else (s.pair p).ceil)
        ∧ (∀ p, p ∉ islandPairs die isl → t.pair p = s.pair p) ∧ t.cores = s.cores ∧ t.mem = s.mem)
    ∧ (s.hardTrip = false → s.powerOff = false →
      let trip (a : State) : State := ({ a with
        hardTrip := true, hardAt := s.time
        ckp := if s.ckp.active then { s.ckp with stop := true, next := none, nextQ := [] } else s.ckp } : State).sendVec 2047
      exec (.hardTrip none) s = .next (trip s)
      ∧ exec (.hardTrip (some (die, isl))) s = .next (trip (s.modIsland die isl (fun i => { hot i with hard := true }))))
    ∧ (∃ t, exec .powerOffTrip s = .next t ∧ t.powerOff = true ∧ t.mem = s.mem ∧ t.poison = s.poison ∧ t.pageKeys = s.pageKeys
        ∧ (s.susp = .suspended → t = { s with powerOff := true })
        ∧ (s.susp ≠ .suspended → t.cores = [] ∧ t.xfers = [] ∧ t.l2 = [] ∧ (∀ d, (t.die d).ready = 0)
            ∧ t.launches = s.launches.filter (fun l => l.2.phase == .preempted && !l.2.saved.isEmpty)))

/-- O: SUSPEND and RESUME (R431, R432, R435), each from the state that allows it, and their ends, with the Orbit ports' sequence numbers kept
between them; a host's access to BAR 0, BAR 2, BAR 4 and memory (R388, R389) and an MSI-X vector (R391); and the messages over Orbit, each taken
once and in its order (R386, R432, R435): loads, stores and atomics homed here, notifies, shares and their ends, SUSPEND and RESUME. The two dwords
of a table entry, a vector that is lost while MSI-X is off and one that stays pending while it is masked and is sent later are taken from PCI
Express (log entry 92); what a share's message carries, the messages of its kill, its energy and its class, and the launch processor that takes it,
are the model's reading (log entry 53); the ports of a die are log entry 95; a hard trip that ends with a RESUME is log entry 50. An access or a message that comes to a stack which is
not ready waits for it (R438; log entry 125); a lost home takes no write, and what it gives is poisoned and open (R422, R423). -/
def Obligations.SuspendAndHostSteps : Prop :=
  ∀ (s : State),
    (∀ dom, s.susp = .running → exec (.suspend dom) s = .next { (if dom then s.sendOrbit .suspend else s) with susp := .suspending })
    ∧ (s.susp = .suspending → s.allSaved = true → s.regionReady (s.suspBase * 4096) 1048576 = true → s.memOk = true →
      ∃ t, exec .suspendComplete s = .next t ∧ t.susp = .suspended ∧ t.cores = [] ∧ t.l2 = [] ∧ t.tlb = []
        ∧ t.orbitKept = (s.orbitTx, s.orbitRx) ∧ t.msix = (s.sendVec 2047).msix ∧ (∀ d, (t.die d).ready = 0) ∧ t.launches = s.launches)
    ∧ (∀ dom, s.susp = .suspended →
      let r : State := { s with
        susp := .resuming, powerOff := false, hardTrip := false, hardAt := 0, orbitTx := s.orbitKept.1, orbitRx := s.orbitKept.2 }
      exec (.resume dom) s = .next (if dom then r.sendOrbit .resume else r))
    ∧ (s.susp = .resuming → (∀ d, d < 4 → s.dieDown d = true ∨ bitOf (s.die d).ready.toNat 32 = true) →
      s.launches.all (fun l => !(s.mustResume l.2)) = true →
      exec .resumeComplete s = .next (({ s with susp := .running, ckp := { s.ckp with pos := s.ckp.vbase } } : State).sendVec 2047))
    ∧ (∀ off n, exec (.hostAccess (.barRead off n)) s = .next { s with hostRead := s.region10Read off n })
    ∧ (∀ off n v, exec (.hostAccess (.barWrite off n v)) s
        = .next (if (n = 4 ∨ n = 8) ∧ off % n = 0 then s.region10Write off n v.toNat else s))
    ∧ (∀ off v, off < 0x8000 → off % 8 = 0 →
      let r : State := { s with msixTable := Sp.put s.msixTable (off / 8) v }
      exec (.hostAccess (.bar4Write off 8 v)) s = .next (if s.msixOn then
        { r with msixPend := r.msixPend.filter r.msixMasked, msix := (r.msixPend.filter (fun v => !(r.msixMasked v))).reverse ++ r.msix }
        else r))
    ∧ (∀ v, (s.msixOn = false → s.sendVec v = s)
        ∧ (s.msixOn = true → s.msixMasked v = true → s.sendVec v = { s with msixPend := addMark s.msixPend v })
        ∧ (s.msixOn = true → s.msixMasked v = false → s.sendVec v = { s with msix := v :: s.msix }))
    ∧ (∀ off n v, off + n ≤ s.bar2 → isHbm (Config.devId * 2 ^ 46 + off) = true →
      exec (.hostAccess (.bar2Read off n)) s = exec (.hostAccess (.memRead (Config.devId * 2 ^ 46 + off) n)) s
      ∧ exec (.hostAccess (.bar2Write off n v)) s = exec (.hostAccess (.memWrite (Config.devId * 2 ^ 46 + off) n v)) s)
    ∧ (∀ pa n, isHbm pa = true → 1 ≤ n → n ≤ 8 →
      (s.stackReady pa = true → s.deadHome pa = false →
        exec (.hostAccess (.memRead pa n)) s = .next { s with hostRead := BitVec.ofNat 64 (natOfBytes (readSeq s.homeByte pa n)) })
      ∧ (s.deadHome pa = true → ∃ t, exec (.hostAccess (.memRead pa n)) s = .next t ∧ t.mem = s.mem ∧ t.l2 = s.l2 ∧ t.cores = s.cores)
      ∧ (s.stackReady pa = false → exec (.hostAccess (.memRead pa n)) s = .next s ∧ exec (.orbitMessageArrival (.load pa n)) s = .next s))
    ∧ (∀ pa n v, isHbm pa = true → 1 ≤ n → n ≤ 8 →
      (s.stackReady pa = false → exec (.hostAccess (.memWrite pa n v)) s = .next s)
      ∧ ((∀ i, i < n → s.lostHome (pa + i) = true) → exec (.hostAccess (.memWrite pa n v)) s = .next s))
    ∧ (∀ pa n v, isHbm pa = true → 1 ≤ n → n ≤ 8 → pa % 2 ^ 39 + n ≤ 2 ^ 39 → s.stackReady pa = true →
      (∀ i, i < n → s.deadHome (pa + i) = false) → s.memOk = true → s.l2.length + 2 < 12288 →
      ∃ t, exec (.hostAccess (.memWrite pa n v)) s = .next t ∧ t.cores = s.cores
        ∧ (∀ i, i < n → t.homeByte (pa + i) = BitVec.ofNat 8 (v.toNat / 2 ^ (8 * i)) ∧ Sp.find? t.tags (paNorm (pa + i)) = none)
        ∧ (∀ a, (∀ i, i < n → paNorm a ≠ paNorm (pa + i)) →
            t.homeByte a = s.homeByte a ∧ Sp.find? t.tags (paNorm a) = Sp.find? s.tags (paNorm a)))
    ∧ (s.orbitOpen = true →
      (∀ pa n, paReg pa = false → 1 ≤ n → n ≤ 8 → s.stackReady pa = true →
        (s.deadHome pa = false → exec (.orbitMessageArrival (.load pa n)) s
          = .next (s.sendOrbit (.data pa (BitVec.ofNat 64 (natOfBytes (readSeq s.uncByte pa n)))
              (if paOff pa then s.poison.contains (pa / 32) else s.homeMarked pa))))
        ∧ (s.deadHome pa = true → ∃ (t : State) (v : Dw), exec (.orbitMessageArrival (.load pa n)) s = .next (t.sendOrbit (.data pa v true)) ∧ t.mem = s.mem))
      ∧ (∀ pa n v, isHbm pa = true → n ≤ 8 →
        exec (.orbitMessageArrival (.store pa n v)) s = exec (.hostAccess (.memWrite pa n v)) s)
      ∧ (∀ pa n v, paReg pa = true → n ≤ 8 →
        exec (.orbitMessageArrival (.store pa n v)) s = .next (s.region10Write (pa % 2 ^ 44) n v.toNat))
      ∧ (∀ pa n v cmp, 1 ≤ n → n ≤ 8 → s.stackReady pa = true →
        let r := s.ownLine (pa / 128)
        let old := r.orbitRead pa n
        let give (a : State) : Res := .next (a.sendOrbit (.data pa (BitVec.ofNat 64 old.1) old.2))
        let m := 2 ^ (8 * n)
        let d := r.outerUsed pa n
        (old.2 = true →
          exec (.orbitMessageArrival (.fetchAdd pa n v)) s = give d ∧ exec (.orbitMessageArrival (.swap pa n v)) s = give d
          ∧ exec (.orbitMessageArrival (.cas pa n cmp v)) s = give d)
        ∧ (old.2 = false →
          exec (.orbitMessageArrival (.fetchAdd pa n v)) s = give (r.orbitWrite pa n ((old.1 + v.toNat) % m))
          ∧ exec (.orbitMessageArrival (.swap pa n v)) s = give (r.orbitWrite pa n (v.toNat % m))
          ∧ exec (.orbitMessageArrival (.cas pa n cmp v)) s
              = give (if old.1 = cmp.toNat % m then r.orbitWrite pa n (v.toNat % m) else d)))
      ∧ (∀ d q v, d < 4 → q < 256 → exec (.orbitMessageArrival (.notify d q v)) s = .next (s.notifyWrite d q v))
      ∧ (∀ dev l die q w p,
        (s.lpUp die = true → s.recordWaits (packetOf die q w p (some (dev, l))) = false →
          exec (.orbitMessageArrival (.share Config.devId dev l die q w p)) s = .next (s.takePacket die q w p (some (dev, l))))
        ∧ (∀ d, d < 4 → s.lpUp die = false → s.lpUp d = true → (∀ e, e < d → s.lpUp e = false) →
          s.recordWaits (packetOf d q w p (some (dev, l))) = false →
          exec (.orbitMessageArrival (.share Config.devId dev l die q w p)) s = .next (s.takePacket d q w p (some (dev, l)))))
      ∧ (∀ l dev w, exec (.orbitMessageArrival (.energy Config.devId l dev w)) s
          = .next (s.modLaunch l (fun x => { x with energy := x.energy + w })))
      ∧ (∀ dev l c, exec (.orbitMessageArrival (.shareClass Config.devId dev l c)) s
          = .next (s.launches.foldl (fun a e => if e.2.origin = some (dev, l) then a.modLaunch e.1 (fun x => { x with cls := c }) else a) s))
      ∧ (∀ l dev status,
        let r := s.modLaunch l (fun x => { x with shares := x.shares.filter (· != dev) })
        exec (.orbitMessageArrival (.shareDone Config.devId l dev status)) s = .next (if status = 0 then r else r.killLaunch l status))
      ∧ (∀ dev l status, exec (.orbitMessageArrival (.shareKill Config.devId dev l status)) s
          = .next (s.launches.foldl (fun a e => if e.2.origin = some (dev, l) then a.killLaunch e.1 status else a) s))
      ∧ exec (.orbitMessageArrival .suspend) s = exec (.suspend false) s)
    ∧ exec (.orbitMessageArrival .resume) s = exec (.resume false) s
    ∧ (∀ port seq m rest, s.agenda = .orbit port seq m :: rest → m ≠ .resume →
      let r : State := { s with agenda := rest }
      (s.portOpen (port % 16) = true → s.accepts m = true → seq = Sp.get 0 s.orbitRx (port % 16) →
        step s = exec (.orbitMessageArrival m) { r with orbitRx := Sp.set 0 s.orbitRx (port % 16) (seq + 1) })
      ∧ (s.portOpen (port % 16) = false ∨ s.accepts m = false ∨ seq ≠ Sp.get 0 s.orbitRx (port % 16) → step s = .next r))
/-- O: phasers (R257, R337, R338, R340, R341). phr joins from the phase after the current one and makes the first member owner; a signal
raises NS and adds its bytes to the phase it signals, whose completion comes at once when it is the last; phw raises NW; phd counts as the
signal that its member owes, and the member leaves with the phase, or at once when its mode has no signal (R338, R342); an operation by no
member of the mode, and a second phr, leave the phaser and make PHASER_OVERRUN pending; bytes that arrive count down PEND0, and those beyond
zero complete the phase and count in OVERRUN. -/
def Obligations.PhaserOperations : Prop :=
  ∀ (s : State) (k core x bytes : Nat),
    let f := s.phaser k
    (∀ mode, f.member? core x = none →
      s.phrAct k core x mode = s.setPhaser k { f with
        members := f.members ++ [{ core := core, ctx := x, mode := mode, j := f.phase + 1, ns := f.phase + 1, nw := f.phase + 1 }]
        owner := if f.members = [] then some (core, x) else f.owner })
    ∧ (∀ m mode, f.member? core x = some m → s.phrAct k core x mode = s.raiseOverrun core x)
    ∧ (f.member? core x = none → s.phdAct k core x = s.raiseOverrun core x ∧ s.signalAct k core x bytes = s.raiseOverrun core x
        ∧ s.phwAct k core x = s.raiseOverrun core x)
    ∧ (∀ m, f.member? core x = some m → m.signals = true →
      let up := f.modMember core x (fun m => { m with ns := m.ns + 1 })
      let now := { up with pend0 := f.pend0 + bytes }
      (m.ns < f.phase → s.signalAct k core x bytes = s.setPhaser k up)
      ∧ (m.ns = f.phase → f.pend0 + bytes < 2 ^ 40 →
          (now.ready = false → s.signalAct k core x bytes = s.setPhaser k now)
          ∧ (now.ready = true → (s.completePhase now).ready = false → s.signalAct k core x bytes = s.setPhaser k (s.completePhase now)))
      ∧ (f.phase < m.ns → f.pend1 + bytes < 2 ^ 40 → ({ up with pend1 := f.pend1 + bytes } : Phaser).ready = false →
          s.signalAct k core x bytes = s.setPhaser k { up with pend1 := f.pend1 + bytes })
      ∧ (m.ns = f.phase → 2 ^ 40 ≤ f.pend0 + bytes → s.signalAct k core x bytes = s.raiseOverrun core x))
    ∧ (∀ m, f.member? core x = some m →
      (m.signals = false → s.signalAct k core x bytes = s.raiseOverrun core x
        ∧ s.phdAct k core x = s.setPhaser k (s.fixOwner { f with members := f.members.filter (fun m => !(m.core == core && m.ctx == x)) }))
      ∧ (m.waits = false → s.phwAct k core x = s.raiseOverrun core x)
      ∧ (m.signals = true →
        let ns := if m.ns ≤ f.phase then f.phase + 1 else if m.ns = f.phase + 1 then f.phase + 2 else m.ns
        let out := f.modMember core x (fun m => { m with ns := ns, leaving := true })
        out.ready = false → s.phdAct k core x = s.setPhaser k out))
    ∧ (∀ m, f.member? core x = some m → m.waits = true →
        s.phwAct k core x = s.setPhaser k (f.modMember core x (fun m => { m with nw := m.nw + 1 }))
        ∧ (s.phwHeld k core x = true ↔ f.phase ≤ m.nw))
    ∧ (f.members ≠ [] → bytes ≠ 0 → ∀ bound,
      (bound ≠ f.phase →
        s.decrement k bytes bound = (s.setPhaser k { f with overrun := min 0xFFFF (f.overrun + bytes) }).overrunOwner f)
      ∧ (bound = f.phase → bytes ≤ f.pend0 → (bytes < f.pend0 ∨ f.anyFor f.phase = true) →
          ({ f with pend0 := f.pend0 - bytes } : Phaser).ready = false →
          s.decrement k bytes bound = s.setPhaser k { f with pend0 := f.pend0 - bytes })
      ∧ (bound = f.phase → f.pend0 < bytes →
          (s.completePhase { f with pend0 := 0, overrun := min 0xFFFF (f.overrun + (bytes - f.pend0)) }).ready = false →
          s.decrement k bytes bound
            = (s.setPhaser k (s.completePhase { f with pend0 := 0, overrun := min 0xFFFF (f.overrun + (bytes - f.pend0)) })).overrunOwner f))


/-! ### Registers, reset, encoding and the step -/

namespace Sys2Proof.Claims

/-- The banks of a register file list no value twice and none that an unlisted register reads as, and its marks no register twice. -/
def bankOk (b : Bank) : Bool := Sp.wf 0 b.s && Sp.wf 0 b.v && Sp.wf 0 b.m && Sp.wf 0 b.a && Sp.wf 0 b.g && Sp.sortedFrom 0 b.marks

/-- The value v as the register of identifier r holds it (R105, R106). -/
def asClass (r : Nat) (v : Val) : Val :=
  if r < 0x40 then .s v.toS else if r < 0x80 then .v v.toV else if r < 0x90 then .m v.toM else if r < 0xA0 then .s v.toS else .g v.toG

/-- What s0, m0 and g0 read as (R106). -/
def hardWired (r : Nat) : Option Val :=
  if r = 0 then some (.s 0) else if r = 0x80 then some (.m (BitVec.allOnes 128)) else if r = 0xA0 then some (.g 1) else none

/-- Core c has a context that may take its next bundle, and the fetch gives b (R35). -/
def fetches (s : State) (c x : Nat) (t : State) (b : Bundle) : Prop :=
  (s.core c).run = some x ∧ (s.core c).frozen = none ∧ (s.core c).arrayBehind = false ∧ (s.core c).stalled = false
    ∧ (s.ctx c x).asyncDue = false ∧ s.fetchMisses.contains c = false ∧ s.fetch c x = (t, .bundle b)

end Sys2Proof.Claims

/-- O: a write to a register of R106 is read back in the register's class (R105), with its poison mark, and leaves every other register; a
write to s0, m0 or g0 is ignored (R102), and they read zero, all ones and 1. The class conversions themselves are another statement's. -/
def Obligations.RegisterFile : Prop :=
  ∀ (b : Bank) (r : Nat) (v : Val) (mark : Option Dw), r ≤ 0xA3 →
    (∀ h, Claims.hardWired r = some h → b.write r v mark = b ∧ b.read r = h)
    ∧ (Claims.hardWired r = none → Claims.bankOk b = true → (b.write r v mark).read r = Claims.asClass r v
        ∧ (b.write r v mark).mark r = mark ∧ Claims.bankOk (b.write r v mark) = true)
    ∧ (∀ q, q ≠ r → (b.write r v mark).read q = b.read q ∧ (b.write r v mark).mark q = b.mark q)

/-- O: right after reset the machine stands as the manual says: every pair free, at OP0, with CEIL at OP3 and no grant (R48, R55, R60); the
core map's error and state, ERRCNT, PWRSTAT, SUSPCTL, FOTAB, XINV and READY read zero (R155, R406, R412, R420, R430, R431, R439), QUANTUM its
reset value (R378); nothing has booted, no core issues, nothing is poisoned, and the stores are canonical. -/
def Obligations.AtReset : Prop :=
  let s := State.reset
  (∀ p, (s.pair p).mode = 0 ∧ (s.pair p).cur = 0 ∧ (s.pair p).ceil = 3 ∧ (s.pair p).grantEn = false ∧ (s.pair p).sum = 0)
    ∧ (∀ c, s.cluReg c 0x80 = 0 ∧ s.cluReg c 0x81 = 0)
    ∧ (∀ d n, n ∈ [0x8B, 0x8C, 0x8D, 0x8E, 0x8F, 0x90, 0x91] → s.dieReg d n = 0)
    ∧ (∀ d, s.dieReg d 0x8A = 0x0064006400640000)
    ∧ s.booted = false ∧ (∀ c, (s.core c).run = none) ∧ s.poison = [] ∧ s.memOk = true

/-- O: the stores stay canonical: whatever transition a step takes, home memory, the scratchpad of every core and of every saved image list
rising addresses and no byte that an unlisted address reads as, and the L2 lists rising lines, if they did before. The canonical form is how this model represents memory (log entry 2), not a rule of the manual. -/
def Obligations.StoresStayCanonical : Prop := ∀ s t : State, s.memOk = true → step s = .next t → t.memOk = true

/-- O: decoding and encoding agree. Every well-formed instruction that has an encoding is read back from its 32 bytes, whatever follows them
(the words of the two empty slots apart: their bundle holds nothing, and stands for itself); and every bundle is the encoding of the
instruction it decodes to, so that no two stand for one. -/
def Obligations.DecodeEncode : Prop :=
  (∀ (i : Instr) (bs rest : List Byte), i.wf = true → encode i = some bs → i ≠ .matrixNop → i ≠ .engineNop →
      decode (bs ++ rest) = .ok (i, rest))
    ∧ (∀ (b : Bundle) (rest : List Byte), ∃ i, decode (bytesOf 32 b.toNat ++ rest) = .ok (i, rest)
        ∧ encode i = some (bytesOf 32 b.toNat))

/-- O: a step runs the decoded instruction. When the agenda names a core whose running context may take its next bundle, the step is exec of
the instruction that the 32 bytes at the program counter decode to, in the state after the fetch, with that core in focus; when it names
another transition, the step is exec of that. -/
def Obligations.StepRunsDecoded : Prop :=
  ∀ (s : State) (rest : List Agenda),
    (∀ core x t b, s.agenda = .focus core :: rest → Claims.fetches { s with agenda := rest, focus := core } core x t b →
      step s = exec (instrOfBundle b) t ∧ t.focus = core
        ∧ ∃ q, ({ s with agenda := rest, focus := core } : State).translate (s.ctxAgent core x) accFetch (s.ctx core x).pc.toNat = .ok (t, q)
            ∧ decode (bytesOf 32 b.toNat) = .ok (instrOfBundle b, [])
            ∧ natOfBytes (t.bundleBytes q.pa q.entry) % 2 ^ 256 = b.toNat)
    ∧ (∀ i, s.agenda = .instr i :: rest → step s = exec i { s with agenda := rest })

/-- O: words written out from R100 to R102, R108, R112 and R114 stand for the instructions they name. -/
def Obligations.WordsDecode : Prop :=
  decodeMove 0 0b0_0_00_0000000001_0_0_00000010 = .ok (.registerMove { inv := 0, grd := 0, src := 1 } 2)
    ∧ decodeMove 0 0b1_1_10_1000000101_1_0000_00100 = .ok (.sxAdd { w := 1, inv := 1, grd := 2, src := 0x205 } 0)
    ∧ decodeMove 0 0b0_0_00_0000000001_1_0011_10100 = .ok (.halt { w := 0, inv := 0, grd := 0, src := 1 })
    ∧ decodeMove 0 0b0_0_01_0000000011_1_0100_01110 = .ok (.std { w := 0, inv := 0, grd := 1, src := 3 })
    ∧ decodeMove 0 0b1_0_00_0000000100_1_1000_00111 = .ok (.vaFma { w := 1, inv := 0, grd := 0, src := 4 } 1)
    ∧ decodeMove 0 0b0_0_00_0001000001_1_1001_00100 = .ok (.rsq { w := 0, inv := 0, grd := 0, src := 0x41 })
    ∧ decodeMove 0 0b0_0_00_0000000101_1_1011_00111 = .ok (.shdr { w := 0, inv := 0, grd := 0, src := 5 })
    ∧ decodeMat 0b00010_011_0001_0010_00000111 = .ok (.mma 3 1 2 7)
    ∧ decodeEng 0 0 0b00001_00010_0011_0000000101 = .ok (.cpy 2 3 5)
    ∧ decodeMove 0 0b0_0_00_0000000001_1_0010_01100 = .error .illegalMove
    ∧ decodeMove 0 0b0_0_00_0000000001_1_1100_00000 = .error .illegalBundle
end

