-- ==== Sys2Proof/Laws/Encoding.lean ====
section
/-! SUPPORT. The fields of an encoded word, and the round trips of words, bundles and bytes. -/

namespace Sys2Proof

set_option Elab.async false

/-! ### Fields of a trigger word -/

theorem encodeTrig_lt (u p : Nat) (m : MoveHead) (hu : u < 16) (hp : p < 32) : encodeTrig u p m < 2 ^ 24 := by
  have := m.w.isLt; have := m.inv.isLt; have := m.grd.isLt; have := m.src.isLt
  simp only [encodeTrig] at *; omega

theorem encodeTrig_w (u p : Nat) (m : MoveHead) (hu : u < 16) (hp : p < 32) : mvW (encodeTrig u p m) = m.w.toNat := by
  have := m.w.isLt; have := m.inv.isLt; have := m.grd.isLt; have := m.src.isLt
  simp only [encodeTrig, mvW, fld] at *; omega

theorem encodeTrig_inv (u p : Nat) (m : MoveHead) (hu : u < 16) (hp : p < 32) : mvInv (encodeTrig u p m) = m.inv.toNat := by
  have := m.w.isLt; have := m.inv.isLt; have := m.grd.isLt; have := m.src.isLt
  simp only [encodeTrig, mvInv, fld] at *; omega

theorem encodeTrig_grd (u p : Nat) (m : MoveHead) (hu : u < 16) (hp : p < 32) : mvGrd (encodeTrig u p m) = m.grd.toNat := by
  have := m.w.isLt; have := m.inv.isLt; have := m.grd.isLt; have := m.src.isLt
  simp only [encodeTrig, mvGrd, fld] at *; omega

theorem encodeTrig_src (u p : Nat) (m : MoveHead) (hu : u < 16) (hp : p < 32) : mvSrc (encodeTrig u p m) = m.src.toNat := by
  have := m.w.isLt; have := m.inv.isLt; have := m.grd.isLt; have := m.src.isLt
  simp only [encodeTrig, mvSrc, fld] at *; omega

theorem encodeTrig_dst (u p : Nat) (m : MoveHead) (hu : u < 16) (hp : p < 32) :
    mvDst (encodeTrig u p m) = 2 ^ 9 + u * 2 ^ 5 + p := by
  have := m.w.isLt; have := m.inv.isLt; have := m.grd.isLt; have := m.src.isLt
  simp only [encodeTrig, mvDst, fld] at *; omega

theorem encodeTrig_unit (u p : Nat) (m : MoveHead) (hu : u < 16) (hp : p < 32) : mvUnit (encodeTrig u p m) = u := by
  have := m.w.isLt; have := m.inv.isLt; have := m.grd.isLt; have := m.src.isLt
  simp only [encodeTrig, mvUnit, fld] at *; omega

theorem encodeTrig_port (u p : Nat) (m : MoveHead) (hu : u < 16) (hp : p < 32) : mvPort (encodeTrig u p m) = p := by
  have := m.w.isLt; have := m.inv.isLt; have := m.grd.isLt; have := m.src.isLt
  simp only [encodeTrig, mvPort, fld] at *; omega

theorem encodeTrig_isPort (u p : Nat) (m : MoveHead) (hu : u < 16) (hp : p < 32) : mvIsPort (encodeTrig u p m) = true := by
  have := m.w.isLt; have := m.inv.isLt; have := m.grd.isLt; have := m.src.isLt
  simp only [encodeTrig, mvIsPort, bitOf, beq_iff_eq] at *; omega

theorem headOf_encodeTrig (u p : Nat) (m : MoveHead) (hu : u < 16) (hp : p < 32) : headOf (encodeTrig u p m) = m := by
  simp [headOf, encodeTrig_w, encodeTrig_inv, encodeTrig_grd, encodeTrig_src, hu, hp]

/-! ### Fields of a plain word -/

theorem encodePlain_lt (m : PlainHead) (d : Nat) (hd : d < 2 ^ 10) : encodePlain m d < 2 ^ 23 := by
  have := m.inv.isLt; have := m.grd.isLt; have := m.src.isLt
  simp only [encodePlain] at *; omega

theorem encodePlain_w (m : PlainHead) (d : Nat) (hd : d < 2 ^ 10) : mvW (encodePlain m d) = 0 := by
  have := m.inv.isLt; have := m.grd.isLt; have := m.src.isLt
  simp only [encodePlain, mvW, fld] at *; omega

theorem encodePlain_inv (m : PlainHead) (d : Nat) (hd : d < 2 ^ 10) : mvInv (encodePlain m d) = m.inv.toNat := by
  have := m.inv.isLt; have := m.grd.isLt; have := m.src.isLt
  simp only [encodePlain, mvInv, fld] at *; omega

theorem encodePlain_grd (m : PlainHead) (d : Nat) (hd : d < 2 ^ 10) : mvGrd (encodePlain m d) = m.grd.toNat := by
  have := m.inv.isLt; have := m.grd.isLt; have := m.src.isLt
  simp only [encodePlain, mvGrd, fld] at *; omega

theorem encodePlain_src (m : PlainHead) (d : Nat) (hd : d < 2 ^ 10) : mvSrc (encodePlain m d) = m.src.toNat := by
  have := m.inv.isLt; have := m.grd.isLt; have := m.src.isLt
  simp only [encodePlain, mvSrc, fld] at *; omega

theorem encodePlain_dst (m : PlainHead) (d : Nat) (hd : d < 2 ^ 10) : mvDst (encodePlain m d) = d := by
  have := m.inv.isLt; have := m.grd.isLt; have := m.src.isLt
  simp only [encodePlain, mvDst, fld] at *; omega

theorem encodePlain_isPort (m : PlainHead) (d : Nat) (hd : d < 2 ^ 10) : mvIsPort (encodePlain m d) = decide (2 ^ 9 ≤ d) := by
  have := m.inv.isLt; have := m.grd.isLt; have := m.src.isLt
  rw [Bool.eq_iff_iff]
  simp only [encodePlain, mvIsPort, bitOf, beq_iff_eq, decide_eq_true_eq] at *; omega

theorem encodePlain_unit (m : PlainHead) (d : Nat) (hd : d < 2 ^ 10) : mvUnit (encodePlain m d) = d / 2 ^ 5 % 16 := by
  have := m.inv.isLt; have := m.grd.isLt; have := m.src.isLt
  simp only [encodePlain, mvUnit, fld] at *; omega

theorem encodePlain_port (m : PlainHead) (d : Nat) (hd : d < 2 ^ 10) : mvPort (encodePlain m d) = d % 32 := by
  have := m.inv.isLt; have := m.grd.isLt; have := m.src.isLt
  simp only [encodePlain, mvPort, fld] at *; omega

theorem encodePlain_low (m : PlainHead) (d : Nat) (hd : d < 2 ^ 10) : fld (encodePlain m d) 7 0 = d % 256 := by
  have := m.inv.isLt; have := m.grd.isLt; have := m.src.isLt
  simp only [encodePlain, fld] at *; omega

theorem plainOf_encodePlain (m : PlainHead) (d : Nat) (hd : d < 2 ^ 10) : plainOf (encodePlain m d) = m := by
  rw [plainOf, encodePlain_inv m d hd, encodePlain_grd m d hd, encodePlain_src m d hd]
  simp only [BitVec.ofNat_toNat, BitVec.setWidth_eq]

/-! ### Legal words decode -/

theorem lastPort_lt (u : Nat) : lastPort u < 32 := by
  unfold lastPort; split <;> omega

/-- The destination of a port word of a unit and port that exist is legal. -/
theorem dstIllegal_port (u p : Nat) (hu : u < 12) (hp : p ≤ lastPort u) : dstIllegal (2 ^ 9 + u * 2 ^ 5 + p) = false := by
  have hl := lastPort_lt u
  have h1 : bitOf (2 ^ 9 + u * 2 ^ 5 + p) 9 = true := by simp only [bitOf, beq_iff_eq]; omega
  have h2 : fld (2 ^ 9 + u * 2 ^ 5 + p) 8 5 = u := by simp only [fld]; omega
  have h3 : fld (2 ^ 9 + u * 2 ^ 5 + p) 4 0 = p := by simp only [fld]; omega
  simp only [dstIllegal, h1, h2, h3, if_true, decide_eq_false_iff_not]; omega

theorem mvIsTrig_encodeTrig (u p : Nat) (m : MoveHead) (hu : u < 12) (h4 : 4 ≤ p) (hp : p < 32) :
    mvIsTrig (encodeTrig u p m) = true := by
  simp [mvIsTrig, encodeTrig_isPort u p m (by omega) hp, encodeTrig_port u p m (by omega) hp, h4]

/-- A trigger word of a unit and port that exist, with a legal source, passes the static checks of its slot. -/
theorem badMove_encodeTrig (u p : Nat) (m : MoveHead) (hu : u < 12) (h4 : 4 ≤ p) (hp : p ≤ lastPort u) (hs : m.ok = true) :
    badMove 0 (encodeTrig u p m) = false := by
  have hl := lastPort_lt u
  have hp' : p < 32 := by omega
  have hsrc : srcIllegal 0 m.src.toNat = false := by simpa [MoveHead.ok, srcOk] using hs
  simp only [badMove, encodeTrig_src u p m (by omega) hp', encodeTrig_dst u p m (by omega) hp', hsrc, dstIllegal_port u p hu hp,
    mvIsTrig_encodeTrig u p m hu h4 hp']
  simp

theorem badUnit_encodeTrig (u p : Nat) (m : MoveHead) (hu : u < 12) (hp : p < 32) : badUnit (encodeTrig u p m) = false := by
  simp only [badUnit, encodeTrig_isPort u p m (by omega) hp, encodeTrig_unit u p m (by omega) hp, Bool.true_and,
    decide_eq_false_iff_not]; omega

/-- A trigger word decodes to its instruction. -/
theorem decodeMove_encodeTrig (u p : Nat) (m : MoveHead) (i : Instr) (hu : u < 12) (h4 : 4 ≤ p) (hp : p ≤ lastPort u)
    (hs : m.ok = true) (ht : trigInstr u p m = some i) : decodeMove 0 (encodeTrig u p m) = .ok i := by
  have hl := lastPort_lt u
  have hp' : p < 32 := by omega
  simp only [decodeMove, badUnit_encodeTrig u p m hu hp', badMove_encodeTrig u p m hu h4 hp hs,
    encodeTrig_isPort u p m (by omega) hp', encodeTrig_unit u p m (by omega) hp', encodeTrig_port u p m (by omega) hp',
    headOf_encodeTrig u p m (by omega) hp']
  obtain ⟨k, rfl⟩ : ∃ k, p = k + 4 := ⟨p - 4, by omega⟩
  simp [ht]

/-! ### The bundle of one word -/

theorem oneMove_m0 (w : Nat) (h : w < 2 ^ 24) : (oneMove w).m0.toNat = w := by simp [oneMove]; omega
theorem oneMat_mat (w : Nat) (h : w < 2 ^ 24) : (oneMat w).mat.toNat = w := by simp [oneMat]; omega
theorem oneEng_eng (w : Nat) (h : w < 2 ^ 24) : (oneEng w).eng.toNat = w := by simp [oneEng]; omega

theorem instrOfBundle_oneMove (w : Nat) (i : Instr) (hw : w < 2 ^ 24) (h0 : w ≠ 0) (hd : decodeMove 0 w = .ok i) :
    instrOfBundle (oneMove w) = i := by
  have hm := oneMove_m0 w hw
  have hne : (oneMove w).m0 ≠ 0 := by
    intro h; rw [h] at hm; simp at hm; omega
  simp only [instrOfBundle, hm, hd, hne, ne_eq, not_false_eq_true, and_self, if_true]

theorem oneMat_ne_oneMove (w v : Nat) (hw : w < 2 ^ 24) (h0 : w ≠ 0) : oneMat w ≠ oneMove v := by
  intro h
  have := congrArg (fun b => b.mat.toNat) h
  simp [oneMat, oneMove] at this; omega

theorem oneEng_ne_oneMove (w v : Nat) (hw : w < 2 ^ 24) (h0 : w ≠ 0) : oneEng w ≠ oneMove v := by
  intro h
  have := congrArg (fun b => b.eng.toNat) h
  simp [oneEng, oneMove] at this; omega

theorem oneEng_ne_oneMat (w v : Nat) (hw : w < 2 ^ 24) (h0 : w ≠ 0) : oneEng w ≠ oneMat v := by
  intro h
  have := congrArg (fun b => b.eng.toNat) h
  simp [oneEng, oneMat] at this; omega

theorem instrOfBundle_oneMat (w : Nat) (i : Instr) (hw : w < 2 ^ 24) (h0 : w ≠ 0) (hd : decodeMat w = .ok i) :
    instrOfBundle (oneMat w) = i := by
  have hm := oneMat_mat w hw
  have hne : (oneMat w).mat ≠ 0 := by
    intro h; rw [h] at hm; simp at hm; omega
  simp only [instrOfBundle, hm, hd, hne, oneMat_ne_oneMove w _ hw h0, ne_eq, not_false_eq_true, and_self, false_and, if_false, if_true]

theorem instrOfBundle_oneEng (w : Nat) (i : Instr) (hw : w < 2 ^ 24) (h0 : w ≠ 0) (hd : decodeEng 0 0 w = .ok i) :
    instrOfBundle (oneEng w) = i := by
  have hm := oneEng_eng w hw
  have hne : (oneEng w).eng ≠ 0 := by
    intro h; rw [h] at hm; simp at hm; omega
  simp only [instrOfBundle, hm, hd, hne, oneEng_ne_oneMove w _ hw h0, oneEng_ne_oneMat w _ hw h0, ne_eq, not_false_eq_true, and_self,
    false_and, if_false, if_true]

/-- The bundle of a trigger word is that trigger. -/
theorem instrOfBundle_trig (u p : Nat) (m : MoveHead) (i : Instr) (hu : u < 12) (h4 : 4 ≤ p) (hp : p ≤ lastPort u)
    (hs : m.ok = true) (ht : trigInstr u p m = some i) : instrOfBundle (oneMove (encodeTrig u p m)) = i := by
  have hl := lastPort_lt u
  refine instrOfBundle_oneMove _ i (encodeTrig_lt u p m (by omega) (by omega)) ?_ (decodeMove_encodeTrig u p m i hu h4 hp hs ht)
  have := m.w.isLt; simp only [encodeTrig]; omega

/-! ### Bytes -/

theorem bytesOf_length : ∀ n x : Nat, (bytesOf n x).length = n
  | 0, _ => rfl
  | n + 1, x => congrArg (· + 1) (bytesOf_length n (x / 256))

/-- The lowest byte comes first: the rest of the bytes are those of the quotient by 256. -/
theorem natOfBytes_bytesOf : ∀ n x : Nat, natOfBytes (bytesOf n x) = x % 256 ^ n
  | 0, x => x.mod_one.symm
  | n + 1, x => calc
      natOfBytes (bytesOf (n + 1) x) = (BitVec.ofNat 8 x).toNat + 256 * natOfBytes (bytesOf n (x / 256)) := rfl
      _ = x % 256 + 256 * (x / 256 % 256 ^ n) := by rw [natOfBytes_bytesOf n, BitVec.toNat_ofNat]
      _ = x % 256 ^ (n + 1) := by rw [← Nat.mod_mul, Nat.pow_add_one, Nat.mul_comm]

/-- A field of k bits below a number r is read back, and r above it. -/
theorem parts (k a r : Nat) (h : a < 2 ^ k) : (a + 2 ^ k * r) / 2 ^ k = r ∧ (a + 2 ^ k * r) % 2 ^ k = a :=
  (Nat.div_mod_unique (Nat.two_pow_pos k)).2 ⟨rfl, h⟩

theorem part_lt (k n a r : Nat) (h : a < 2 ^ k) (hr : r < 2 ^ n) : a + 2 ^ k * r < 2 ^ (k + n) := calc
  a + 2 ^ k * r < 2 ^ k * 1 + 2 ^ k * r := by rw [Nat.mul_one]; exact Nat.add_lt_add_right h _
  _ = 2 ^ k * (1 + r) := (Nat.mul_add ..).symm
  _ ≤ 2 ^ k * 2 ^ n := Nat.mul_le_mul_left _ (by omega)
  _ = 2 ^ (k + n) := (Nat.pow_add ..).symm

theorem Bundle.toNat_lt (b : Bundle) : b.toNat < 2 ^ 256 :=
  part_lt 32 224 _ _ b.hdr.isLt (part_lt 24 200 _ _ b.m0.isLt (part_lt 24 176 _ _ b.m1.isLt (part_lt 24 152 _ _ b.m2.isLt
    (part_lt 24 128 _ _ b.m3.isLt (part_lt 24 104 _ _ b.m4.isLt (part_lt 24 80 _ _ b.m5.isLt (part_lt 24 56 _ _ b.mat.isLt
      (part_lt 24 32 _ _ b.eng.isLt b.pool.isLt))))))))

theorem ofNat_low (k a r : Nat) (x : BitVec k) (h : x.toNat = a) : BitVec.ofNat k (a + 2 ^ k * r) = x := by
  apply BitVec.eq_of_toNat_eq
  rw [BitVec.toNat_ofNat, (parts k a r (h ▸ x.isLt)).2, h]

theorem ofNat_mod_self (k : Nat) (x : BitVec k) : BitVec.ofNat k x.toNat = x := by simp

theorem Bundle.ofNat_toNat (b : Bundle) : Bundle.ofNat b.toNat = b := by
  have e (x j : Nat) : x / 2 ^ (j + 24) = x / 2 ^ j / 2 ^ 24 := by rw [Nat.pow_add, Nat.div_div_eq_div_mul]
  have h1 : b.toNat / 2 ^ 32 = _ := (parts 32 _ _ b.hdr.isLt).1
  have h2 : b.toNat / 2 ^ 56 = _ := ((e _ 32).trans (congrArg (fun x => x / 2 ^ 24) h1)).trans ((parts 24 _ _ b.m0.isLt).1)
  have h3 : b.toNat / 2 ^ 80 = _ := ((e _ 56).trans (congrArg (fun x => x / 2 ^ 24) h2)).trans ((parts 24 _ _ b.m1.isLt).1)
  have h4 : b.toNat / 2 ^ 104 = _ := ((e _ 80).trans (congrArg (fun x => x / 2 ^ 24) h3)).trans ((parts 24 _ _ b.m2.isLt).1)
  have h5 : b.toNat / 2 ^ 128 = _ := ((e _ 104).trans (congrArg (fun x => x / 2 ^ 24) h4)).trans ((parts 24 _ _ b.m3.isLt).1)
  have h6 : b.toNat / 2 ^ 152 = _ := ((e _ 128).trans (congrArg (fun x => x / 2 ^ 24) h5)).trans ((parts 24 _ _ b.m4.isLt).1)
  have h7 : b.toNat / 2 ^ 176 = _ := ((e _ 152).trans (congrArg (fun x => x / 2 ^ 24) h6)).trans ((parts 24 _ _ b.m5.isLt).1)
  have h8 : b.toNat / 2 ^ 200 = _ := ((e _ 176).trans (congrArg (fun x => x / 2 ^ 24) h7)).trans ((parts 24 _ _ b.mat.isLt).1)
  have h9 : b.toNat / 2 ^ 224 = _ := ((e _ 200).trans (congrArg (fun x => x / 2 ^ 24) h8)).trans ((parts 24 _ _ b.eng.isLt).1)
  have h0 : BitVec.ofNat 32 b.toNat = b.hdr := ofNat_low 32 _ _ _ rfl
  simp only [Bundle.ofNat, h0, h1, h2, h3, h4, h5, h6, h7, h8, h9]
  simp only [ofNat_low 24 _ _ _ rfl, ofNat_mod_self]

/-- The decoder reads the 32 bytes of a bundle as the instruction the bundle stands for, and leaves the rest. -/
theorem decode_bytes (b : Bundle) (rest : List Byte) : decode (bytesOf 32 b.toNat ++ rest) = .ok (instrOfBundle b, rest) := by
  have hl := bytesOf_length 32 b.toNat
  have h1 : (bytesOf 32 b.toNat ++ rest).take 32 = bytesOf 32 b.toNat := by
    rw [List.take_append_of_le_length (by omega), List.take_of_length_le (by omega)]
  have h2 : (bytesOf 32 b.toNat ++ rest).drop 32 = rest := by
    rw [List.drop_append_of_le_length (by omega), List.drop_of_length_le (by omega), List.nil_append]
  have h3 : ¬ (bytesOf 32 b.toNat ++ rest).length < 32 := by rw [List.length_append]; omega
  have hb : b.toNat < 256 ^ 32 := b.toNat_lt
  rw [decode, if_neg h3, h1, h2, natOfBytes_bytesOf, Nat.mod_eq_of_lt hb, Bundle.ofNat_toNat]

/-! ### Fields of slots 6 and 7 -/

theorem matWord_fields (op t a b n : Nat) (ho : op < 32) (ht : t < 8) (ha : a < 16) (hb : b < 16) (hn : n < 256) :
    fld (matWord op t a b n) 23 19 = op ∧ fld (matWord op t a b n) 18 16 = t ∧ fld (matWord op t a b n) 15 12 = a ∧
    fld (matWord op t a b n) 11 8 = b ∧ fld (matWord op t a b n) 7 0 = n ∧ fld (matWord op t a b n) 11 0 = b * 2 ^ 8 + n ∧
    fld (matWord op t a b n) 15 0 = a * 2 ^ 12 + b * 2 ^ 8 + n ∧ matWord op t a b n < 2 ^ 24 := by
  simp only [matWord, fld]; omega

theorem engWord_fields (op c a i : Nat) (ho : op < 32) (hc : c < 32) (ha : a < 16) (hi : i < 1024) :
    fld (engWord op c a i) 23 19 = op ∧ fld (engWord op c a i) 18 14 = c ∧ fld (engWord op c a i) 13 10 = a ∧
    fld (engWord op c a i) 9 0 = i ∧ fld (engWord op c a i) 9 8 = i / 256 ∧ fld (engWord op c a i) 7 7 = i / 128 % 2 ∧
    fld (engWord op c a i) 1 0 = i % 4 ∧ engWord op c a i < 2 ^ 24 := by
  simp only [engWord, fld]; omega

/-- The immediate of a word of a bundle without a pool, when it is no pool reference. -/
theorem engImm_engWord (op c a i : Nat) (ho : op < 32) (hc : c < 32) (ha : a < 16) (hi : i < 768) :
    (engImm 0 0 (engWord op c a i)).toNat = i := by
  obtain ⟨-, -, -, h3, h4, -, -, -⟩ := engWord_fields op c a i ho hc ha (by omega)
  rw [engImm, h3, h4, if_neg (by omega)]
  simp; omega

theorem immIllegal_engWord (op c a i : Nat) (ho : op < 32) (hc : c < 32) (ha : a < 16) (hi : i < 768) :
    immIllegal 0 (engWord op c a i) = false := by
  obtain ⟨-, -, -, -, h4, -, -, -⟩ := engWord_fields op c a i ho hc ha (by omega)
  rw [immIllegal, h4, if_neg (by omega)]

end Sys2Proof
end

