-- ==== Sys2Proof/Laws/State.lean ====
section
/-! SUPPORT. The sparse map's laws, and one lemma for each field under each update of the state, of a core and of a context. -/

namespace Sys2Proof

set_option Elab.async false

namespace Sp

theorem find?_put_same {α : Type} (m : Sp α) (k : Nat) (v : α) : (m.put k v).find? k = some v := by
  induction m with
  | nil => simp [put, find?]
  | cons e t ih =>
    obtain ⟨a, w⟩ := e
    simp only [put]
    split
    · simp [find?]
    · split
      · simp [find?]
      · rw [find?, if_neg (fun h => by omega), ih]

theorem find?_put_ne {α : Type} (m : Sp α) (k j : Nat) (v : α) (h : j ≠ k) : (m.put k v).find? j = m.find? j := by
  have hk : k ≠ j := fun e => h e.symm
  induction m with
  | nil => simp [put, find?, hk]
  | cons e t ih =>
    obtain ⟨a, w⟩ := e
    simp only [put]
    split
    · simp [find?, hk]
    · split
      · subst_vars; simp [find?, hk]
      · simp only [find?, ih]

theorem put_put {α : Type} (m : Sp α) (k : Nat) (v w : α) : (m.put k v).put k w = m.put k w := by
  induction m with
  | nil => simp [put]
  | cons e t ih =>
    obtain ⟨a, u⟩ := e
    simp only [put]
    split
    · simp [put]
    · split
      · simp [put]
      · rename_i h1 h2; simp [put, h1, h2, ih]

@[simp] theorem get_put_same {α : Type} (d : α) (m : Sp α) (k : Nat) (v : α) : Sp.get d (m.put k v) k = v := by
  simp [get, find?_put_same]

theorem get_put_ne {α : Type} (d : α) (m : Sp α) (k j : Nat) (v : α) (h : j ≠ k) : Sp.get d (m.put k v) j = Sp.get d m j := by
  simp [get, find?_put_ne m k j v h]

theorem find?_erase_ne {α : Type} (m : Sp α) (k j : Nat) (h : j ≠ k) : (m.erase k).find? j = m.find? j := by
  have hk : k ≠ j := fun e => h e.symm
  induction m with
  | nil => rfl
  | cons e t ih =>
    obtain ⟨a, w⟩ := e
    simp only [erase]
    split
    · rfl
    · split
      · subst_vars; simp [find?, hk]
      · simp only [find?, ih]

/-- Writing one key leaves every other key's value. -/
theorem get_set_ne {α : Type} [DecidableEq α] (d : α) (m : Sp α) (k j : Nat) (v : α) (h : j ≠ k) :
    Sp.get d (m.set d k v) j = Sp.get d m j := by
  unfold set; split
  · simp [get, find?_erase_ne m k j h]
  · exact get_put_ne d m k j v h

theorem find?_sorted {α : Type} (m : Sp α) (lo j : Nat) (h : sortedFrom lo m = true) (hj : j < lo) : m.find? j = none := by
  induction m generalizing lo with
  | nil => rfl
  | cons e t ih =>
    obtain ⟨a, w⟩ := e
    simp only [sortedFrom, Bool.and_eq_true, decide_eq_true_eq] at h
    rw [find?, if_neg (by omega)]
    exact ih _ h.2 (by omega)

theorem sorted_mono {α : Type} (m : Sp α) (lo hi : Nat) (h : sortedFrom hi m = true) (hl : lo ≤ hi) : sortedFrom lo m = true := by
  cases m with
  | nil => rfl
  | cons e t =>
    obtain ⟨a, w⟩ := e
    simp only [sortedFrom, Bool.and_eq_true, decide_eq_true_eq] at h ⊢
    exact ⟨by omega, h.2⟩

theorem sorted_put {α : Type} (m : Sp α) (lo k : Nat) (v : α) (h : sortedFrom lo m = true) (hk : lo ≤ k) :
    sortedFrom lo (m.put k v) = true := by
  induction m generalizing lo with
  | nil => simpa [put, sortedFrom] using hk
  | cons e t ih =>
    obtain ⟨a, w⟩ := e
    simp only [sortedFrom, Bool.and_eq_true, decide_eq_true_eq] at h
    simp only [put]
    split
    · simp only [sortedFrom, Bool.and_eq_true, decide_eq_true_eq]; exact ⟨hk, by omega, h.2⟩
    · split
      · subst_vars; simp only [sortedFrom, Bool.and_eq_true, decide_eq_true_eq]; exact ⟨hk, h.2⟩
      · simp only [sortedFrom, Bool.and_eq_true, decide_eq_true_eq]; exact ⟨h.1, ih _ h.2 (by omega)⟩

theorem sorted_erase {α : Type} (m : Sp α) (lo k : Nat) (h : sortedFrom lo m = true) : sortedFrom lo (m.erase k) = true := by
  induction m generalizing lo with
  | nil => rfl
  | cons e t ih =>
    obtain ⟨a, w⟩ := e
    simp only [erase]
    have h' := h
    simp only [sortedFrom, Bool.and_eq_true, decide_eq_true_eq] at h
    split
    · exact h'
    · split
      · exact sorted_mono t _ _ h.2 (by omega)
      · simp only [sortedFrom, Bool.and_eq_true, decide_eq_true_eq]; exact ⟨h.1, ih _ h.2⟩

theorem all_put {α : Type} (p : Nat × α → Bool) (m : Sp α) (k : Nat) (v : α) (h : m.all p = true) (hv : p (k, v) = true) :
    (m.put k v).all p = true := by
  induction m with
  | nil => simp [put, hv]
  | cons e t ih =>
    obtain ⟨a, w⟩ := e
    simp only [List.all_cons, Bool.and_eq_true] at h
    simp only [put]
    split
    · simp [hv, h.1, h.2]
    · split
      · simp [hv, h.2]
      · simp only [List.all_cons, Bool.and_eq_true]; exact ⟨h.1, ih h.2⟩

theorem all_erase {α : Type} (p : Nat × α → Bool) (m : Sp α) (k : Nat) (h : m.all p = true) : (m.erase k).all p = true := by
  induction m with
  | nil => rfl
  | cons e t ih =>
    obtain ⟨a, w⟩ := e
    simp only [List.all_cons, Bool.and_eq_true] at h
    simp only [erase]
    split
    · simp [h.1, h.2]
    · split
      · exact h.2
      · simp only [List.all_cons, Bool.and_eq_true]; exact ⟨h.1, ih h.2⟩

/-- A write keeps the canonical form. -/
theorem wf_set {α : Type} [DecidableEq α] (d : α) (m : Sp α) (k : Nat) (v : α) (h : wf d m = true) : wf d (m.set d k v) = true := by
  simp only [wf, Bool.and_eq_true] at h ⊢
  unfold set
  split
  · exact ⟨sorted_erase m 0 k h.1, all_erase _ m k h.2⟩
  · rename_i hv
    exact ⟨sorted_put m 0 k v h.1 (Nat.zero_le _), all_put _ m k v h.2 (by simpa using hv)⟩

theorem find?_erase_same {α : Type} (m : Sp α) (lo k : Nat) (h : sortedFrom lo m = true) : (m.erase k).find? k = none := by
  induction m generalizing lo with
  | nil => rfl
  | cons e t ih =>
    obtain ⟨a, w⟩ := e
    have h' := h
    simp only [sortedFrom, Bool.and_eq_true, decide_eq_true_eq] at h
    simp only [erase]
    split
    · exact find?_sorted _ (k + 1) k (by simp only [sortedFrom, Bool.and_eq_true, decide_eq_true_eq]; exact ⟨by omega, h.2⟩) (by omega)
    · split
      · exact find?_sorted t (a + 1) k h.2 (by omega)
      · rw [find?, if_neg (fun e => by omega), ih _ h.2]

/-- A read of the key just written gives the value. -/
theorem get_set_same {α : Type} [DecidableEq α] (d : α) (m : Sp α) (k : Nat) (v : α) (h : wf d m = true) :
    Sp.get d (m.set d k v) k = v := by
  simp only [wf, Bool.and_eq_true] at h
  unfold set
  split
  · rename_i hv; rw [get, find?_erase_same m 0 k h.1, hv]; rfl
  · exact get_put_same d m k v

end Sp

namespace Machine

/-! ### State.setCore -/
@[simp] theorem State.core_setCore (s : State) (k : Nat) (v : Core) : (s.setCore k v).core k = v := Sp.get_put_same _ _ _ _
theorem State.core_setCore_ne (s : State) (k j : Nat) (v : Core) (h : j ≠ k) : (s.setCore k v).core j = s.core j := Sp.get_put_ne _ _ _ _ _ h
@[simp] theorem State.setCore_setCore (s : State) (k : Nat) (v w : Core) : (s.setCore k v).setCore k w = s.setCore k w := by
  simp [State.setCore, Sp.put_put]
@[simp] theorem State.setCore_field_mem (s : State) (k : Nat) (v : Core) : (s.setCore k v).mem = s.mem := rfl
@[simp] theorem State.setCore_field_poison (s : State) (k : Nat) (v : Core) : (s.setCore k v).poison = s.poison := rfl
@[simp] theorem State.setCore_field_tags (s : State) (k : Nat) (v : Core) : (s.setCore k v).tags = s.tags := rfl
@[simp] theorem State.setCore_field_l2 (s : State) (k : Nat) (v : Core) : (s.setCore k v).l2 = s.l2 := rfl
@[simp] theorem State.setCore_field_tlb (s : State) (k : Nat) (v : Core) : (s.setCore k v).tlb = s.tlb := rfl
@[simp] theorem State.setCore_field_walks (s : State) (k : Nat) (v : Core) : (s.setCore k v).walks = s.walks := rfl
@[simp] theorem State.setCore_field_xinvs (s : State) (k : Nat) (v : Core) : (s.setCore k v).xinvs = s.xinvs := rfl
@[simp] theorem State.setCore_field_keys (s : State) (k : Nat) (v : Core) : (s.setCore k v).keys = s.keys := rfl
@[simp] theorem State.setCore_field_pageKeys (s : State) (k : Nat) (v : Core) : (s.setCore k v).pageKeys = s.pageKeys := rfl
@[simp] theorem State.setCore_field_pairs (s : State) (k : Nat) (v : Core) : (s.setCore k v).pairs = s.pairs := rfl
@[simp] theorem State.setCore_field_clusters (s : State) (k : Nat) (v : Core) : (s.setCore k v).clusters = s.clusters := rfl
@[simp] theorem State.setCore_field_dies (s : State) (k : Nat) (v : Core) : (s.setCore k v).dies = s.dies := rfl
@[simp] theorem State.setCore_field_launches (s : State) (k : Nat) (v : Core) : (s.setCore k v).launches = s.launches := rfl
@[simp] theorem State.setCore_field_sections (s : State) (k : Nat) (v : Core) : (s.setCore k v).sections = s.sections := rfl
@[simp] theorem State.setCore_field_nextLaunch (s : State) (k : Nat) (v : Core) : (s.setCore k v).nextLaunch = s.nextLaunch := rfl
@[simp] theorem State.setCore_field_nextPlace (s : State) (k : Nat) (v : Core) : (s.setCore k v).nextPlace = s.nextPlace := rfl
@[simp] theorem State.setCore_field_xfers (s : State) (k : Nat) (v : Core) : (s.setCore k v).xfers = s.xfers := rfl
@[simp] theorem State.setCore_field_nextXfer (s : State) (k : Nat) (v : Core) : (s.setCore k v).nextXfer = s.nextXfer := rfl
@[simp] theorem State.setCore_field_saSteps (s : State) (k : Nat) (v : Core) : (s.setCore k v).saSteps = s.saSteps := rfl
@[simp] theorem State.setCore_field_s2 (s : State) (k : Nat) (v : Core) : (s.setCore k v).s2 = s.s2 := rfl
@[simp] theorem State.setCore_field_ckp (s : State) (k : Nat) (v : Core) : (s.setCore k v).ckp = s.ckp := rfl
@[simp] theorem State.setCore_field_fotab (s : State) (k : Nat) (v : Core) : (s.setCore k v).fotab = s.fotab := rfl
@[simp] theorem State.setCore_field_susp (s : State) (k : Nat) (v : Core) : (s.setCore k v).susp = s.susp := rfl
@[simp] theorem State.setCore_field_suspBase (s : State) (k : Nat) (v : Core) : (s.setCore k v).suspBase = s.suspBase := rfl
@[simp] theorem State.setCore_field_suspDomain (s : State) (k : Nat) (v : Core) : (s.setCore k v).suspDomain = s.suspDomain := rfl
@[simp] theorem State.setCore_field_hardTrip (s : State) (k : Nat) (v : Core) : (s.setCore k v).hardTrip = s.hardTrip := rfl
@[simp] theorem State.setCore_field_hardAt (s : State) (k : Nat) (v : Core) : (s.setCore k v).hardAt = s.hardAt := rfl
@[simp] theorem State.setCore_field_powerOff (s : State) (k : Nat) (v : Core) : (s.setCore k v).powerOff = s.powerOff := rfl
@[simp] theorem State.setCore_field_booted (s : State) (k : Nat) (v : Core) : (s.setCore k v).booted = s.booted := rfl
@[simp] theorem State.setCore_field_flash (s : State) (k : Nat) (v : Core) : (s.setCore k v).flash = s.flash := rfl
@[simp] theorem State.setCore_field_image (s : State) (k : Nat) (v : Core) : (s.setCore k v).image = s.image := rfl
@[simp] theorem State.setCore_field_domain (s : State) (k : Nat) (v : Core) : (s.setCore k v).domain = s.domain := rfl
@[simp] theorem State.setCore_field_peersSuspended (s : State) (k : Nat) (v : Core) : (s.setCore k v).peersSuspended = s.peersSuspended := rfl
@[simp] theorem State.setCore_field_msix (s : State) (k : Nat) (v : Core) : (s.setCore k v).msix = s.msix := rfl
@[simp] theorem State.setCore_field_msixTable (s : State) (k : Nat) (v : Core) : (s.setCore k v).msixTable = s.msixTable := rfl
@[simp] theorem State.setCore_field_msixPend (s : State) (k : Nat) (v : Core) : (s.setCore k v).msixPend = s.msixPend := rfl
@[simp] theorem State.setCore_field_msixOn (s : State) (k : Nat) (v : Core) : (s.setCore k v).msixOn = s.msixOn := rfl
@[simp] theorem State.setCore_field_msixMask (s : State) (k : Nat) (v : Core) : (s.setCore k v).msixMask = s.msixMask := rfl
@[simp] theorem State.setCore_field_bar2 (s : State) (k : Nat) (v : Core) : (s.setCore k v).bar2 = s.bar2 := rfl
@[simp] theorem State.setCore_field_hostRead (s : State) (k : Nat) (v : Core) : (s.setCore k v).hostRead = s.hostRead := rfl
@[simp] theorem State.setCore_field_orbitOut (s : State) (k : Nat) (v : Core) : (s.setCore k v).orbitOut = s.orbitOut := rfl
@[simp] theorem State.setCore_field_orbitWait (s : State) (k : Nat) (v : Core) : (s.setCore k v).orbitWait = s.orbitWait := rfl
@[simp] theorem State.setCore_field_orbitTx (s : State) (k : Nat) (v : Core) : (s.setCore k v).orbitTx = s.orbitTx := rfl
@[simp] theorem State.setCore_field_orbitRx (s : State) (k : Nat) (v : Core) : (s.setCore k v).orbitRx = s.orbitRx := rfl
@[simp] theorem State.setCore_field_orbitKept (s : State) (k : Nat) (v : Core) : (s.setCore k v).orbitKept = s.orbitKept := rfl
@[simp] theorem State.setCore_field_focus (s : State) (k : Nat) (v : Core) : (s.setCore k v).focus = s.focus := rfl
@[simp] theorem State.setCore_field_agenda (s : State) (k : Nat) (v : Core) : (s.setCore k v).agenda = s.agenda := rfl
@[simp] theorem State.setCore_field_replays (s : State) (k : Nat) (v : Core) : (s.setCore k v).replays = s.replays := rfl
@[simp] theorem State.setCore_field_diverges (s : State) (k : Nat) (v : Core) : (s.setCore k v).diverges = s.diverges := rfl
@[simp] theorem State.setCore_field_fetchMisses (s : State) (k : Nat) (v : Core) : (s.setCore k v).fetchMisses = s.fetchMisses := rfl
@[simp] theorem State.setCore_field_time (s : State) (k : Nat) (v : Core) : (s.setCore k v).time = s.time := rfl
@[simp] theorem State.setCore_field_freeCtr (s : State) (k : Nat) (v : Core) : (s.setCore k v).freeCtr = s.freeCtr := rfl
@[simp] theorem State.pair_setCore (s : State) (k j : Nat) (v : Core) : (s.setCore k v).pair j = s.pair j := rfl
@[simp] theorem State.clu_setCore (s : State) (k j : Nat) (v : Core) : (s.setCore k v).clu j = s.clu j := rfl
@[simp] theorem State.die_setCore (s : State) (k j : Nat) (v : Core) : (s.setCore k v).die j = s.die j := rfl
@[simp] theorem State.launch_setCore (s : State) (k j : Nat) (v : Core) : (s.setCore k v).launch j = s.launch j := rfl

/-! ### State.setPair -/
@[simp] theorem State.pair_setPair (s : State) (k : Nat) (v : Pair) : (s.setPair k v).pair k = v := Sp.get_put_same _ _ _ _
theorem State.pair_setPair_ne (s : State) (k j : Nat) (v : Pair) (h : j ≠ k) : (s.setPair k v).pair j = s.pair j := Sp.get_put_ne _ _ _ _ _ h
@[simp] theorem State.setPair_setPair (s : State) (k : Nat) (v w : Pair) : (s.setPair k v).setPair k w = s.setPair k w := by
  simp [State.setPair, Sp.put_put]
@[simp] theorem State.setPair_field_mem (s : State) (k : Nat) (v : Pair) : (s.setPair k v).mem = s.mem := rfl
@[simp] theorem State.setPair_field_poison (s : State) (k : Nat) (v : Pair) : (s.setPair k v).poison = s.poison := rfl
@[simp] theorem State.setPair_field_tags (s : State) (k : Nat) (v : Pair) : (s.setPair k v).tags = s.tags := rfl
@[simp] theorem State.setPair_field_l2 (s : State) (k : Nat) (v : Pair) : (s.setPair k v).l2 = s.l2 := rfl
@[simp] theorem State.setPair_field_tlb (s : State) (k : Nat) (v : Pair) : (s.setPair k v).tlb = s.tlb := rfl
@[simp] theorem State.setPair_field_walks (s : State) (k : Nat) (v : Pair) : (s.setPair k v).walks = s.walks := rfl
@[simp] theorem State.setPair_field_xinvs (s : State) (k : Nat) (v : Pair) : (s.setPair k v).xinvs = s.xinvs := rfl
@[simp] theorem State.setPair_field_keys (s : State) (k : Nat) (v : Pair) : (s.setPair k v).keys = s.keys := rfl
@[simp] theorem State.setPair_field_pageKeys (s : State) (k : Nat) (v : Pair) : (s.setPair k v).pageKeys = s.pageKeys := rfl
@[simp] theorem State.setPair_field_cores (s : State) (k : Nat) (v : Pair) : (s.setPair k v).cores = s.cores := rfl
@[simp] theorem State.setPair_field_clusters (s : State) (k : Nat) (v : Pair) : (s.setPair k v).clusters = s.clusters := rfl
@[simp] theorem State.setPair_field_dies (s : State) (k : Nat) (v : Pair) : (s.setPair k v).dies = s.dies := rfl
@[simp] theorem State.setPair_field_launches (s : State) (k : Nat) (v : Pair) : (s.setPair k v).launches = s.launches := rfl
@[simp] theorem State.setPair_field_sections (s : State) (k : Nat) (v : Pair) : (s.setPair k v).sections = s.sections := rfl
@[simp] theorem State.setPair_field_nextLaunch (s : State) (k : Nat) (v : Pair) : (s.setPair k v).nextLaunch = s.nextLaunch := rfl
@[simp] theorem State.setPair_field_nextPlace (s : State) (k : Nat) (v : Pair) : (s.setPair k v).nextPlace = s.nextPlace := rfl
@[simp] theorem State.setPair_field_xfers (s : State) (k : Nat) (v : Pair) : (s.setPair k v).xfers = s.xfers := rfl
@[simp] theorem State.setPair_field_nextXfer (s : State) (k : Nat) (v : Pair) : (s.setPair k v).nextXfer = s.nextXfer := rfl
@[simp] theorem State.setPair_field_saSteps (s : State) (k : Nat) (v : Pair) : (s.setPair k v).saSteps = s.saSteps := rfl
@[simp] theorem State.setPair_field_s2 (s : State) (k : Nat) (v : Pair) : (s.setPair k v).s2 = s.s2 := rfl
@[simp] theorem State.setPair_field_ckp (s : State) (k : Nat) (v : Pair) : (s.setPair k v).ckp = s.ckp := rfl
@[simp] theorem State.setPair_field_fotab (s : State) (k : Nat) (v : Pair) : (s.setPair k v).fotab = s.fotab := rfl
@[simp] theorem State.setPair_field_susp (s : State) (k : Nat) (v : Pair) : (s.setPair k v).susp = s.susp := rfl
@[simp] theorem State.setPair_field_suspBase (s : State) (k : Nat) (v : Pair) : (s.setPair k v).suspBase = s.suspBase := rfl
@[simp] theorem State.setPair_field_suspDomain (s : State) (k : Nat) (v : Pair) : (s.setPair k v).suspDomain = s.suspDomain := rfl
@[simp] theorem State.setPair_field_hardTrip (s : State) (k : Nat) (v : Pair) : (s.setPair k v).hardTrip = s.hardTrip := rfl
@[simp] theorem State.setPair_field_hardAt (s : State) (k : Nat) (v : Pair) : (s.setPair k v).hardAt = s.hardAt := rfl
@[simp] theorem State.setPair_field_powerOff (s : State) (k : Nat) (v : Pair) : (s.setPair k v).powerOff = s.powerOff := rfl
@[simp] theorem State.setPair_field_booted (s : State) (k : Nat) (v : Pair) : (s.setPair k v).booted = s.booted := rfl
@[simp] theorem State.setPair_field_flash (s : State) (k : Nat) (v : Pair) : (s.setPair k v).flash = s.flash := rfl
@[simp] theorem State.setPair_field_image (s : State) (k : Nat) (v : Pair) : (s.setPair k v).image = s.image := rfl
@[simp] theorem State.setPair_field_domain (s : State) (k : Nat) (v : Pair) : (s.setPair k v).domain = s.domain := rfl
@[simp] theorem State.setPair_field_peersSuspended (s : State) (k : Nat) (v : Pair) : (s.setPair k v).peersSuspended = s.peersSuspended := rfl
@[simp] theorem State.setPair_field_msix (s : State) (k : Nat) (v : Pair) : (s.setPair k v).msix = s.msix := rfl
@[simp] theorem State.setPair_field_msixTable (s : State) (k : Nat) (v : Pair) : (s.setPair k v).msixTable = s.msixTable := rfl
@[simp] theorem State.setPair_field_msixPend (s : State) (k : Nat) (v : Pair) : (s.setPair k v).msixPend = s.msixPend := rfl
@[simp] theorem State.setPair_field_msixOn (s : State) (k : Nat) (v : Pair) : (s.setPair k v).msixOn = s.msixOn := rfl
@[simp] theorem State.setPair_field_msixMask (s : State) (k : Nat) (v : Pair) : (s.setPair k v).msixMask = s.msixMask := rfl
@[simp] theorem State.setPair_field_bar2 (s : State) (k : Nat) (v : Pair) : (s.setPair k v).bar2 = s.bar2 := rfl
@[simp] theorem State.setPair_field_hostRead (s : State) (k : Nat) (v : Pair) : (s.setPair k v).hostRead = s.hostRead := rfl
@[simp] theorem State.setPair_field_orbitOut (s : State) (k : Nat) (v : Pair) : (s.setPair k v).orbitOut = s.orbitOut := rfl
@[simp] theorem State.setPair_field_orbitWait (s : State) (k : Nat) (v : Pair) : (s.setPair k v).orbitWait = s.orbitWait := rfl
@[simp] theorem State.setPair_field_orbitTx (s : State) (k : Nat) (v : Pair) : (s.setPair k v).orbitTx = s.orbitTx := rfl
@[simp] theorem State.setPair_field_orbitRx (s : State) (k : Nat) (v : Pair) : (s.setPair k v).orbitRx = s.orbitRx := rfl
@[simp] theorem State.setPair_field_orbitKept (s : State) (k : Nat) (v : Pair) : (s.setPair k v).orbitKept = s.orbitKept := rfl
@[simp] theorem State.setPair_field_focus (s : State) (k : Nat) (v : Pair) : (s.setPair k v).focus = s.focus := rfl
@[simp] theorem State.setPair_field_agenda (s : State) (k : Nat) (v : Pair) : (s.setPair k v).agenda = s.agenda := rfl
@[simp] theorem State.setPair_field_replays (s : State) (k : Nat) (v : Pair) : (s.setPair k v).replays = s.replays := rfl
@[simp] theorem State.setPair_field_diverges (s : State) (k : Nat) (v : Pair) : (s.setPair k v).diverges = s.diverges := rfl
@[simp] theorem State.setPair_field_fetchMisses (s : State) (k : Nat) (v : Pair) : (s.setPair k v).fetchMisses = s.fetchMisses := rfl
@[simp] theorem State.setPair_field_time (s : State) (k : Nat) (v : Pair) : (s.setPair k v).time = s.time := rfl
@[simp] theorem State.setPair_field_freeCtr (s : State) (k : Nat) (v : Pair) : (s.setPair k v).freeCtr = s.freeCtr := rfl
@[simp] theorem State.core_setPair (s : State) (k j : Nat) (v : Pair) : (s.setPair k v).core j = s.core j := rfl
@[simp] theorem State.clu_setPair (s : State) (k j : Nat) (v : Pair) : (s.setPair k v).clu j = s.clu j := rfl
@[simp] theorem State.die_setPair (s : State) (k j : Nat) (v : Pair) : (s.setPair k v).die j = s.die j := rfl
@[simp] theorem State.launch_setPair (s : State) (k j : Nat) (v : Pair) : (s.setPair k v).launch j = s.launch j := rfl

/-! ### State.setClu -/
@[simp] theorem State.clu_setClu (s : State) (k : Nat) (v : Cluster) : (s.setClu k v).clu k = v := Sp.get_put_same _ _ _ _
theorem State.clu_setClu_ne (s : State) (k j : Nat) (v : Cluster) (h : j ≠ k) : (s.setClu k v).clu j = s.clu j := Sp.get_put_ne _ _ _ _ _ h
@[simp] theorem State.setClu_setClu (s : State) (k : Nat) (v w : Cluster) : (s.setClu k v).setClu k w = s.setClu k w := by
  simp [State.setClu, Sp.put_put]
@[simp] theorem State.setClu_field_mem (s : State) (k : Nat) (v : Cluster) : (s.setClu k v).mem = s.mem := rfl
@[simp] theorem State.setClu_field_poison (s : State) (k : Nat) (v : Cluster) : (s.setClu k v).poison = s.poison := rfl
@[simp] theorem State.setClu_field_tags (s : State) (k : Nat) (v : Cluster) : (s.setClu k v).tags = s.tags := rfl
@[simp] theorem State.setClu_field_l2 (s : State) (k : Nat) (v : Cluster) : (s.setClu k v).l2 = s.l2 := rfl
@[simp] theorem State.setClu_field_tlb (s : State) (k : Nat) (v : Cluster) : (s.setClu k v).tlb = s.tlb := rfl
@[simp] theorem State.setClu_field_walks (s : State) (k : Nat) (v : Cluster) : (s.setClu k v).walks = s.walks := rfl
@[simp] theorem State.setClu_field_xinvs (s : State) (k : Nat) (v : Cluster) : (s.setClu k v).xinvs = s.xinvs := rfl
@[simp] theorem State.setClu_field_keys (s : State) (k : Nat) (v : Cluster) : (s.setClu k v).keys = s.keys := rfl
@[simp] theorem State.setClu_field_pageKeys (s : State) (k : Nat) (v : Cluster) : (s.setClu k v).pageKeys = s.pageKeys := rfl
@[simp] theorem State.setClu_field_cores (s : State) (k : Nat) (v : Cluster) : (s.setClu k v).cores = s.cores := rfl
@[simp] theorem State.setClu_field_pairs (s : State) (k : Nat) (v : Cluster) : (s.setClu k v).pairs = s.pairs := rfl
@[simp] theorem State.setClu_field_dies (s : State) (k : Nat) (v : Cluster) : (s.setClu k v).dies = s.dies := rfl
@[simp] theorem State.setClu_field_launches (s : State) (k : Nat) (v : Cluster) : (s.setClu k v).launches = s.launches := rfl
@[simp] theorem State.setClu_field_sections (s : State) (k : Nat) (v : Cluster) : (s.setClu k v).sections = s.sections := rfl
@[simp] theorem State.setClu_field_nextLaunch (s : State) (k : Nat) (v : Cluster) : (s.setClu k v).nextLaunch = s.nextLaunch := rfl
@[simp] theorem State.setClu_field_nextPlace (s : State) (k : Nat) (v : Cluster) : (s.setClu k v).nextPlace = s.nextPlace := rfl
@[simp] theorem State.setClu_field_xfers (s : State) (k : Nat) (v : Cluster) : (s.setClu k v).xfers = s.xfers := rfl
@[simp] theorem State.setClu_field_nextXfer (s : State) (k : Nat) (v : Cluster) : (s.setClu k v).nextXfer = s.nextXfer := rfl
@[simp] theorem State.setClu_field_saSteps (s : State) (k : Nat) (v : Cluster) : (s.setClu k v).saSteps = s.saSteps := rfl
@[simp] theorem State.setClu_field_s2 (s : State) (k : Nat) (v : Cluster) : (s.setClu k v).s2 = s.s2 := rfl
@[simp] theorem State.setClu_field_ckp (s : State) (k : Nat) (v : Cluster) : (s.setClu k v).ckp = s.ckp := rfl
@[simp] theorem State.setClu_field_fotab (s : State) (k : Nat) (v : Cluster) : (s.setClu k v).fotab = s.fotab := rfl
@[simp] theorem State.setClu_field_susp (s : State) (k : Nat) (v : Cluster) : (s.setClu k v).susp = s.susp := rfl
@[simp] theorem State.setClu_field_suspBase (s : State) (k : Nat) (v : Cluster) : (s.setClu k v).suspBase = s.suspBase := rfl
@[simp] theorem State.setClu_field_suspDomain (s : State) (k : Nat) (v : Cluster) : (s.setClu k v).suspDomain = s.suspDomain := rfl
@[simp] theorem State.setClu_field_hardTrip (s : State) (k : Nat) (v : Cluster) : (s.setClu k v).hardTrip = s.hardTrip := rfl
@[simp] theorem State.setClu_field_hardAt (s : State) (k : Nat) (v : Cluster) : (s.setClu k v).hardAt = s.hardAt := rfl
@[simp] theorem State.setClu_field_powerOff (s : State) (k : Nat) (v : Cluster) : (s.setClu k v).powerOff = s.powerOff := rfl
@[simp] theorem State.setClu_field_booted (s : State) (k : Nat) (v : Cluster) : (s.setClu k v).booted = s.booted := rfl
@[simp] theorem State.setClu_field_flash (s : State) (k : Nat) (v : Cluster) : (s.setClu k v).flash = s.flash := rfl
@[simp] theorem State.setClu_field_image (s : State) (k : Nat) (v : Cluster) : (s.setClu k v).image = s.image := rfl
@[simp] theorem State.setClu_field_domain (s : State) (k : Nat) (v : Cluster) : (s.setClu k v).domain = s.domain := rfl
@[simp] theorem State.setClu_field_peersSuspended (s : State) (k : Nat) (v : Cluster) : (s.setClu k v).peersSuspended = s.peersSuspended := rfl
@[simp] theorem State.setClu_field_msix (s : State) (k : Nat) (v : Cluster) : (s.setClu k v).msix = s.msix := rfl
@[simp] theorem State.setClu_field_msixTable (s : State) (k : Nat) (v : Cluster) : (s.setClu k v).msixTable = s.msixTable := rfl
@[simp] theorem State.setClu_field_msixPend (s : State) (k : Nat) (v : Cluster) : (s.setClu k v).msixPend = s.msixPend := rfl
@[simp] theorem State.setClu_field_msixOn (s : State) (k : Nat) (v : Cluster) : (s.setClu k v).msixOn = s.msixOn := rfl
@[simp] theorem State.setClu_field_msixMask (s : State) (k : Nat) (v : Cluster) : (s.setClu k v).msixMask = s.msixMask := rfl
@[simp] theorem State.setClu_field_bar2 (s : State) (k : Nat) (v : Cluster) : (s.setClu k v).bar2 = s.bar2 := rfl
@[simp] theorem State.setClu_field_hostRead (s : State) (k : Nat) (v : Cluster) : (s.setClu k v).hostRead = s.hostRead := rfl
@[simp] theorem State.setClu_field_orbitOut (s : State) (k : Nat) (v : Cluster) : (s.setClu k v).orbitOut = s.orbitOut := rfl
@[simp] theorem State.setClu_field_orbitWait (s : State) (k : Nat) (v : Cluster) : (s.setClu k v).orbitWait = s.orbitWait := rfl
@[simp] theorem State.setClu_field_orbitTx (s : State) (k : Nat) (v : Cluster) : (s.setClu k v).orbitTx = s.orbitTx := rfl
@[simp] theorem State.setClu_field_orbitRx (s : State) (k : Nat) (v : Cluster) : (s.setClu k v).orbitRx = s.orbitRx := rfl
@[simp] theorem State.setClu_field_orbitKept (s : State) (k : Nat) (v : Cluster) : (s.setClu k v).orbitKept = s.orbitKept := rfl
@[simp] theorem State.setClu_field_focus (s : State) (k : Nat) (v : Cluster) : (s.setClu k v).focus = s.focus := rfl
@[simp] theorem State.setClu_field_agenda (s : State) (k : Nat) (v : Cluster) : (s.setClu k v).agenda = s.agenda := rfl
@[simp] theorem State.setClu_field_replays (s : State) (k : Nat) (v : Cluster) : (s.setClu k v).replays = s.replays := rfl
@[simp] theorem State.setClu_field_diverges (s : State) (k : Nat) (v : Cluster) : (s.setClu k v).diverges = s.diverges := rfl
@[simp] theorem State.setClu_field_fetchMisses (s : State) (k : Nat) (v : Cluster) : (s.setClu k v).fetchMisses = s.fetchMisses := rfl
@[simp] theorem State.setClu_field_time (s : State) (k : Nat) (v : Cluster) : (s.setClu k v).time = s.time := rfl
@[simp] theorem State.setClu_field_freeCtr (s : State) (k : Nat) (v : Cluster) : (s.setClu k v).freeCtr = s.freeCtr := rfl
@[simp] theorem State.core_setClu (s : State) (k j : Nat) (v : Cluster) : (s.setClu k v).core j = s.core j := rfl
@[simp] theorem State.pair_setClu (s : State) (k j : Nat) (v : Cluster) : (s.setClu k v).pair j = s.pair j := rfl
@[simp] theorem State.die_setClu (s : State) (k j : Nat) (v : Cluster) : (s.setClu k v).die j = s.die j := rfl
@[simp] theorem State.launch_setClu (s : State) (k j : Nat) (v : Cluster) : (s.setClu k v).launch j = s.launch j := rfl

/-! ### State.setDie -/
@[simp] theorem State.die_setDie (s : State) (k : Nat) (v : Die) : (s.setDie k v).die k = v := Sp.get_put_same _ _ _ _
theorem State.die_setDie_ne (s : State) (k j : Nat) (v : Die) (h : j ≠ k) : (s.setDie k v).die j = s.die j := Sp.get_put_ne _ _ _ _ _ h
@[simp] theorem State.setDie_setDie (s : State) (k : Nat) (v w : Die) : (s.setDie k v).setDie k w = s.setDie k w := by
  simp [State.setDie, Sp.put_put]
@[simp] theorem State.setDie_field_mem (s : State) (k : Nat) (v : Die) : (s.setDie k v).mem = s.mem := rfl
@[simp] theorem State.setDie_field_poison (s : State) (k : Nat) (v : Die) : (s.setDie k v).poison = s.poison := rfl
@[simp] theorem State.setDie_field_tags (s : State) (k : Nat) (v : Die) : (s.setDie k v).tags = s.tags := rfl
@[simp] theorem State.setDie_field_l2 (s : State) (k : Nat) (v : Die) : (s.setDie k v).l2 = s.l2 := rfl
@[simp] theorem State.setDie_field_tlb (s : State) (k : Nat) (v : Die) : (s.setDie k v).tlb = s.tlb := rfl
@[simp] theorem State.setDie_field_walks (s : State) (k : Nat) (v : Die) : (s.setDie k v).walks = s.walks := rfl
@[simp] theorem State.setDie_field_xinvs (s : State) (k : Nat) (v : Die) : (s.setDie k v).xinvs = s.xinvs := rfl
@[simp] theorem State.setDie_field_keys (s : State) (k : Nat) (v : Die) : (s.setDie k v).keys = s.keys := rfl
@[simp] theorem State.setDie_field_pageKeys (s : State) (k : Nat) (v : Die) : (s.setDie k v).pageKeys = s.pageKeys := rfl
@[simp] theorem State.setDie_field_cores (s : State) (k : Nat) (v : Die) : (s.setDie k v).cores = s.cores := rfl
@[simp] theorem State.setDie_field_pairs (s : State) (k : Nat) (v : Die) : (s.setDie k v).pairs = s.pairs := rfl
@[simp] theorem State.setDie_field_clusters (s : State) (k : Nat) (v : Die) : (s.setDie k v).clusters = s.clusters := rfl
@[simp] theorem State.setDie_field_launches (s : State) (k : Nat) (v : Die) : (s.setDie k v).launches = s.launches := rfl
@[simp] theorem State.setDie_field_sections (s : State) (k : Nat) (v : Die) : (s.setDie k v).sections = s.sections := rfl
@[simp] theorem State.setDie_field_nextLaunch (s : State) (k : Nat) (v : Die) : (s.setDie k v).nextLaunch = s.nextLaunch := rfl
@[simp] theorem State.setDie_field_nextPlace (s : State) (k : Nat) (v : Die) : (s.setDie k v).nextPlace = s.nextPlace := rfl
@[simp] theorem State.setDie_field_xfers (s : State) (k : Nat) (v : Die) : (s.setDie k v).xfers = s.xfers := rfl
@[simp] theorem State.setDie_field_nextXfer (s : State) (k : Nat) (v : Die) : (s.setDie k v).nextXfer = s.nextXfer := rfl
@[simp] theorem State.setDie_field_saSteps (s : State) (k : Nat) (v : Die) : (s.setDie k v).saSteps = s.saSteps := rfl
@[simp] theorem State.setDie_field_s2 (s : State) (k : Nat) (v : Die) : (s.setDie k v).s2 = s.s2 := rfl
@[simp] theorem State.setDie_field_ckp (s : State) (k : Nat) (v : Die) : (s.setDie k v).ckp = s.ckp := rfl
@[simp] theorem State.setDie_field_fotab (s : State) (k : Nat) (v : Die) : (s.setDie k v).fotab = s.fotab := rfl
@[simp] theorem State.setDie_field_susp (s : State) (k : Nat) (v : Die) : (s.setDie k v).susp = s.susp := rfl
@[simp] theorem State.setDie_field_suspBase (s : State) (k : Nat) (v : Die) : (s.setDie k v).suspBase = s.suspBase := rfl
@[simp] theorem State.setDie_field_suspDomain (s : State) (k : Nat) (v : Die) : (s.setDie k v).suspDomain = s.suspDomain := rfl
@[simp] theorem State.setDie_field_hardTrip (s : State) (k : Nat) (v : Die) : (s.setDie k v).hardTrip = s.hardTrip := rfl
@[simp] theorem State.setDie_field_hardAt (s : State) (k : Nat) (v : Die) : (s.setDie k v).hardAt = s.hardAt := rfl
@[simp] theorem State.setDie_field_powerOff (s : State) (k : Nat) (v : Die) : (s.setDie k v).powerOff = s.powerOff := rfl
@[simp] theorem State.setDie_field_booted (s : State) (k : Nat) (v : Die) : (s.setDie k v).booted = s.booted := rfl
@[simp] theorem State.setDie_field_flash (s : State) (k : Nat) (v : Die) : (s.setDie k v).flash = s.flash := rfl
@[simp] theorem State.setDie_field_image (s : State) (k : Nat) (v : Die) : (s.setDie k v).image = s.image := rfl
@[simp] theorem State.setDie_field_domain (s : State) (k : Nat) (v : Die) : (s.setDie k v).domain = s.domain := rfl
@[simp] theorem State.setDie_field_peersSuspended (s : State) (k : Nat) (v : Die) : (s.setDie k v).peersSuspended = s.peersSuspended := rfl
@[simp] theorem State.setDie_field_msix (s : State) (k : Nat) (v : Die) : (s.setDie k v).msix = s.msix := rfl
@[simp] theorem State.setDie_field_msixTable (s : State) (k : Nat) (v : Die) : (s.setDie k v).msixTable = s.msixTable := rfl
@[simp] theorem State.setDie_field_msixPend (s : State) (k : Nat) (v : Die) : (s.setDie k v).msixPend = s.msixPend := rfl
@[simp] theorem State.setDie_field_msixOn (s : State) (k : Nat) (v : Die) : (s.setDie k v).msixOn = s.msixOn := rfl
@[simp] theorem State.setDie_field_msixMask (s : State) (k : Nat) (v : Die) : (s.setDie k v).msixMask = s.msixMask := rfl
@[simp] theorem State.setDie_field_bar2 (s : State) (k : Nat) (v : Die) : (s.setDie k v).bar2 = s.bar2 := rfl
@[simp] theorem State.setDie_field_hostRead (s : State) (k : Nat) (v : Die) : (s.setDie k v).hostRead = s.hostRead := rfl
@[simp] theorem State.setDie_field_orbitOut (s : State) (k : Nat) (v : Die) : (s.setDie k v).orbitOut = s.orbitOut := rfl
@[simp] theorem State.setDie_field_orbitWait (s : State) (k : Nat) (v : Die) : (s.setDie k v).orbitWait = s.orbitWait := rfl
@[simp] theorem State.setDie_field_orbitTx (s : State) (k : Nat) (v : Die) : (s.setDie k v).orbitTx = s.orbitTx := rfl
@[simp] theorem State.setDie_field_orbitRx (s : State) (k : Nat) (v : Die) : (s.setDie k v).orbitRx = s.orbitRx := rfl
@[simp] theorem State.setDie_field_orbitKept (s : State) (k : Nat) (v : Die) : (s.setDie k v).orbitKept = s.orbitKept := rfl
@[simp] theorem State.setDie_field_focus (s : State) (k : Nat) (v : Die) : (s.setDie k v).focus = s.focus := rfl
@[simp] theorem State.setDie_field_agenda (s : State) (k : Nat) (v : Die) : (s.setDie k v).agenda = s.agenda := rfl
@[simp] theorem State.setDie_field_replays (s : State) (k : Nat) (v : Die) : (s.setDie k v).replays = s.replays := rfl
@[simp] theorem State.setDie_field_diverges (s : State) (k : Nat) (v : Die) : (s.setDie k v).diverges = s.diverges := rfl
@[simp] theorem State.setDie_field_fetchMisses (s : State) (k : Nat) (v : Die) : (s.setDie k v).fetchMisses = s.fetchMisses := rfl
@[simp] theorem State.setDie_field_time (s : State) (k : Nat) (v : Die) : (s.setDie k v).time = s.time := rfl
@[simp] theorem State.setDie_field_freeCtr (s : State) (k : Nat) (v : Die) : (s.setDie k v).freeCtr = s.freeCtr := rfl
@[simp] theorem State.core_setDie (s : State) (k j : Nat) (v : Die) : (s.setDie k v).core j = s.core j := rfl
@[simp] theorem State.pair_setDie (s : State) (k j : Nat) (v : Die) : (s.setDie k v).pair j = s.pair j := rfl
@[simp] theorem State.clu_setDie (s : State) (k j : Nat) (v : Die) : (s.setDie k v).clu j = s.clu j := rfl
@[simp] theorem State.launch_setDie (s : State) (k j : Nat) (v : Die) : (s.setDie k v).launch j = s.launch j := rfl

/-! ### State.setLaunch -/
@[simp] theorem State.launch_setLaunch (s : State) (k : Nat) (v : Launch) : (s.setLaunch k v).launch k = v := Sp.get_put_same _ _ _ _
theorem State.launch_setLaunch_ne (s : State) (k j : Nat) (v : Launch) (h : j ≠ k) : (s.setLaunch k v).launch j = s.launch j := Sp.get_put_ne _ _ _ _ _ h
@[simp] theorem State.setLaunch_setLaunch (s : State) (k : Nat) (v w : Launch) : (s.setLaunch k v).setLaunch k w = s.setLaunch k w := by
  simp [State.setLaunch, Sp.put_put]
@[simp] theorem State.setLaunch_field_mem (s : State) (k : Nat) (v : Launch) : (s.setLaunch k v).mem = s.mem := rfl
@[simp] theorem State.setLaunch_field_poison (s : State) (k : Nat) (v : Launch) : (s.setLaunch k v).poison = s.poison := rfl
@[simp] theorem State.setLaunch_field_tags (s : State) (k : Nat) (v : Launch) : (s.setLaunch k v).tags = s.tags := rfl
@[simp] theorem State.setLaunch_field_l2 (s : State) (k : Nat) (v : Launch) : (s.setLaunch k v).l2 = s.l2 := rfl
@[simp] theorem State.setLaunch_field_tlb (s : State) (k : Nat) (v : Launch) : (s.setLaunch k v).tlb = s.tlb := rfl
@[simp] theorem State.setLaunch_field_walks (s : State) (k : Nat) (v : Launch) : (s.setLaunch k v).walks = s.walks := rfl
@[simp] theorem State.setLaunch_field_xinvs (s : State) (k : Nat) (v : Launch) : (s.setLaunch k v).xinvs = s.xinvs := rfl
@[simp] theorem State.setLaunch_field_keys (s : State) (k : Nat) (v : Launch) : (s.setLaunch k v).keys = s.keys := rfl
@[simp] theorem State.setLaunch_field_pageKeys (s : State) (k : Nat) (v : Launch) : (s.setLaunch k v).pageKeys = s.pageKeys := rfl
@[simp] theorem State.setLaunch_field_cores (s : State) (k : Nat) (v : Launch) : (s.setLaunch k v).cores = s.cores := rfl
@[simp] theorem State.setLaunch_field_pairs (s : State) (k : Nat) (v : Launch) : (s.setLaunch k v).pairs = s.pairs := rfl
@[simp] theorem State.setLaunch_field_clusters (s : State) (k : Nat) (v : Launch) : (s.setLaunch k v).clusters = s.clusters := rfl
@[simp] theorem State.setLaunch_field_dies (s : State) (k : Nat) (v : Launch) : (s.setLaunch k v).dies = s.dies := rfl
@[simp] theorem State.setLaunch_field_sections (s : State) (k : Nat) (v : Launch) : (s.setLaunch k v).sections = s.sections := rfl
@[simp] theorem State.setLaunch_field_nextLaunch (s : State) (k : Nat) (v : Launch) : (s.setLaunch k v).nextLaunch = s.nextLaunch := rfl
@[simp] theorem State.setLaunch_field_nextPlace (s : State) (k : Nat) (v : Launch) : (s.setLaunch k v).nextPlace = s.nextPlace := rfl
@[simp] theorem State.setLaunch_field_xfers (s : State) (k : Nat) (v : Launch) : (s.setLaunch k v).xfers = s.xfers := rfl
@[simp] theorem State.setLaunch_field_nextXfer (s : State) (k : Nat) (v : Launch) : (s.setLaunch k v).nextXfer = s.nextXfer := rfl
@[simp] theorem State.setLaunch_field_saSteps (s : State) (k : Nat) (v : Launch) : (s.setLaunch k v).saSteps = s.saSteps := rfl
@[simp] theorem State.setLaunch_field_s2 (s : State) (k : Nat) (v : Launch) : (s.setLaunch k v).s2 = s.s2 := rfl
@[simp] theorem State.setLaunch_field_ckp (s : State) (k : Nat) (v : Launch) : (s.setLaunch k v).ckp = s.ckp := rfl
@[simp] theorem State.setLaunch_field_fotab (s : State) (k : Nat) (v : Launch) : (s.setLaunch k v).fotab = s.fotab := rfl
@[simp] theorem State.setLaunch_field_susp (s : State) (k : Nat) (v : Launch) : (s.setLaunch k v).susp = s.susp := rfl
@[simp] theorem State.setLaunch_field_suspBase (s : State) (k : Nat) (v : Launch) : (s.setLaunch k v).suspBase = s.suspBase := rfl
@[simp] theorem State.setLaunch_field_suspDomain (s : State) (k : Nat) (v : Launch) : (s.setLaunch k v).suspDomain = s.suspDomain := rfl
@[simp] theorem State.setLaunch_field_hardTrip (s : State) (k : Nat) (v : Launch) : (s.setLaunch k v).hardTrip = s.hardTrip := rfl
@[simp] theorem State.setLaunch_field_hardAt (s : State) (k : Nat) (v : Launch) : (s.setLaunch k v).hardAt = s.hardAt := rfl
@[simp] theorem State.setLaunch_field_powerOff (s : State) (k : Nat) (v : Launch) : (s.setLaunch k v).powerOff = s.powerOff := rfl
@[simp] theorem State.setLaunch_field_booted (s : State) (k : Nat) (v : Launch) : (s.setLaunch k v).booted = s.booted := rfl
@[simp] theorem State.setLaunch_field_flash (s : State) (k : Nat) (v : Launch) : (s.setLaunch k v).flash = s.flash := rfl
@[simp] theorem State.setLaunch_field_image (s : State) (k : Nat) (v : Launch) : (s.setLaunch k v).image = s.image := rfl
@[simp] theorem State.setLaunch_field_domain (s : State) (k : Nat) (v : Launch) : (s.setLaunch k v).domain = s.domain := rfl
@[simp] theorem State.setLaunch_field_peersSuspended (s : State) (k : Nat) (v : Launch) : (s.setLaunch k v).peersSuspended = s.peersSuspended := rfl
@[simp] theorem State.setLaunch_field_msix (s : State) (k : Nat) (v : Launch) : (s.setLaunch k v).msix = s.msix := rfl
@[simp] theorem State.setLaunch_field_msixTable (s : State) (k : Nat) (v : Launch) : (s.setLaunch k v).msixTable = s.msixTable := rfl
@[simp] theorem State.setLaunch_field_msixPend (s : State) (k : Nat) (v : Launch) : (s.setLaunch k v).msixPend = s.msixPend := rfl
@[simp] theorem State.setLaunch_field_msixOn (s : State) (k : Nat) (v : Launch) : (s.setLaunch k v).msixOn = s.msixOn := rfl
@[simp] theorem State.setLaunch_field_msixMask (s : State) (k : Nat) (v : Launch) : (s.setLaunch k v).msixMask = s.msixMask := rfl
@[simp] theorem State.setLaunch_field_bar2 (s : State) (k : Nat) (v : Launch) : (s.setLaunch k v).bar2 = s.bar2 := rfl
@[simp] theorem State.setLaunch_field_hostRead (s : State) (k : Nat) (v : Launch) : (s.setLaunch k v).hostRead = s.hostRead := rfl
@[simp] theorem State.setLaunch_field_orbitOut (s : State) (k : Nat) (v : Launch) : (s.setLaunch k v).orbitOut = s.orbitOut := rfl
@[simp] theorem State.setLaunch_field_orbitWait (s : State) (k : Nat) (v : Launch) : (s.setLaunch k v).orbitWait = s.orbitWait := rfl
@[simp] theorem State.setLaunch_field_orbitTx (s : State) (k : Nat) (v : Launch) : (s.setLaunch k v).orbitTx = s.orbitTx := rfl
@[simp] theorem State.setLaunch_field_orbitRx (s : State) (k : Nat) (v : Launch) : (s.setLaunch k v).orbitRx = s.orbitRx := rfl
@[simp] theorem State.setLaunch_field_orbitKept (s : State) (k : Nat) (v : Launch) : (s.setLaunch k v).orbitKept = s.orbitKept := rfl
@[simp] theorem State.setLaunch_field_focus (s : State) (k : Nat) (v : Launch) : (s.setLaunch k v).focus = s.focus := rfl
@[simp] theorem State.setLaunch_field_agenda (s : State) (k : Nat) (v : Launch) : (s.setLaunch k v).agenda = s.agenda := rfl
@[simp] theorem State.setLaunch_field_replays (s : State) (k : Nat) (v : Launch) : (s.setLaunch k v).replays = s.replays := rfl
@[simp] theorem State.setLaunch_field_diverges (s : State) (k : Nat) (v : Launch) : (s.setLaunch k v).diverges = s.diverges := rfl
@[simp] theorem State.setLaunch_field_fetchMisses (s : State) (k : Nat) (v : Launch) : (s.setLaunch k v).fetchMisses = s.fetchMisses := rfl
@[simp] theorem State.setLaunch_field_time (s : State) (k : Nat) (v : Launch) : (s.setLaunch k v).time = s.time := rfl
@[simp] theorem State.setLaunch_field_freeCtr (s : State) (k : Nat) (v : Launch) : (s.setLaunch k v).freeCtr = s.freeCtr := rfl
@[simp] theorem State.core_setLaunch (s : State) (k j : Nat) (v : Launch) : (s.setLaunch k v).core j = s.core j := rfl
@[simp] theorem State.pair_setLaunch (s : State) (k j : Nat) (v : Launch) : (s.setLaunch k v).pair j = s.pair j := rfl
@[simp] theorem State.clu_setLaunch (s : State) (k j : Nat) (v : Launch) : (s.setLaunch k v).clu j = s.clu j := rfl
@[simp] theorem State.die_setLaunch (s : State) (k j : Nat) (v : Launch) : (s.setLaunch k v).die j = s.die j := rfl

/-! ### Core.setCtx -/
@[simp] theorem Core.ctx_setCtx (c : Core) (x : Nat) (v : Ctx) : (c.setCtx x v).ctx x = v := Sp.get_put_same _ _ _ _
theorem Core.ctx_setCtx_ne (c : Core) (x y : Nat) (v : Ctx) (h : y ≠ x) : (c.setCtx x v).ctx y = c.ctx y := Sp.get_put_ne _ _ _ _ _ h
@[simp] theorem Core.setCtx_setCtx (c : Core) (x : Nat) (v w : Ctx) : (c.setCtx x v).setCtx x w = c.setCtx x w := by
  simp [Core.setCtx, Sp.put_put]
@[simp] theorem Core.setCtx_field_run (c : Core) (x : Nat) (v : Ctx) : (c.setCtx x v).run = c.run := rfl
@[simp] theorem Core.setCtx_field_latches (c : Core) (x : Nat) (v : Ctx) : (c.setCtx x v).latches = c.latches := rfl
@[simp] theorem Core.setCtx_field_tiles (c : Core) (x : Nat) (v : Ctx) : (c.setCtx x v).tiles = c.tiles := rfl
@[simp] theorem Core.setCtx_field_tileMarks (c : Core) (x : Nat) (v : Ctx) : (c.setCtx x v).tileMarks = c.tileMarks := rfl
@[simp] theorem Core.setCtx_field_mq (c : Core) (x : Nat) (v : Ctx) : (c.setCtx x v).mq = c.mq := rfl
@[simp] theorem Core.setCtx_field_eq (c : Core) (x : Nat) (v : Ctx) : (c.setCtx x v).eq = c.eq := rfl
@[simp] theorem Core.setCtx_field_mrun (c : Core) (x : Nat) (v : Ctx) : (c.setCtx x v).mrun = c.mrun := rfl
@[simp] theorem Core.setCtx_field_marks (c : Core) (x : Nat) (v : Ctx) : (c.setCtx x v).marks = c.marks := rfl
@[simp] theorem Core.setCtx_field_mIss (c : Core) (x : Nat) (v : Ctx) : (c.setCtx x v).mIss = c.mIss := rfl
@[simp] theorem Core.setCtx_field_eIss (c : Core) (x : Nat) (v : Ctx) : (c.setCtx x v).eIss = c.eIss := rfl
@[simp] theorem Core.setCtx_field_mfree (c : Core) (x : Nat) (v : Ctx) : (c.setCtx x v).mfree = c.mfree := rfl
@[simp] theorem Core.setCtx_field_efree (c : Core) (x : Nat) (v : Ctx) : (c.setCtx x v).efree = c.efree := rfl
@[simp] theorem Core.setCtx_field_mwin (c : Core) (x : Nat) (v : Ctx) : (c.setCtx x v).mwin = c.mwin := rfl
@[simp] theorem Core.setCtx_field_scratch (c : Core) (x : Nat) (v : Ctx) : (c.setCtx x v).scratch = c.scratch := rfl
@[simp] theorem Core.setCtx_field_scratchPoison (c : Core) (x : Nat) (v : Ctx) : (c.setCtx x v).scratchPoison = c.scratchPoison := rfl
@[simp] theorem Core.setCtx_field_l1 (c : Core) (x : Nat) (v : Ctx) : (c.setCtx x v).l1 = c.l1 := rfl
@[simp] theorem Core.setCtx_field_gen (c : Core) (x : Nat) (v : Ctx) : (c.setCtx x v).gen = c.gen := rfl
@[simp] theorem Core.setCtx_field_drained (c : Core) (x : Nat) (v : Ctx) : (c.setCtx x v).drained = c.drained := rfl
@[simp] theorem Core.setCtx_field_log (c : Core) (x : Nat) (v : Ctx) : (c.setCtx x v).log = c.log := rfl
@[simp] theorem Core.setCtx_field_reqsAcked (c : Core) (x : Nat) (v : Ctx) : (c.setCtx x v).reqsAcked = c.reqsAcked := rfl
@[simp] theorem Core.setCtx_field_ovfd (c : Core) (x : Nat) (v : Ctx) : (c.setCtx x v).ovfd = c.ovfd := rfl
@[simp] theorem Core.setCtx_field_drain (c : Core) (x : Nat) (v : Ctx) : (c.setCtx x v).drain = c.drain := rfl
@[simp] theorem Core.setCtx_field_preqs (c : Core) (x : Nat) (v : Ctx) : (c.setCtx x v).preqs = c.preqs := rfl
@[simp] theorem Core.setCtx_field_promos (c : Core) (x : Nat) (v : Ctx) : (c.setCtx x v).promos = c.promos := rfl
@[simp] theorem Core.setCtx_field_sa (c : Core) (x : Nat) (v : Ctx) : (c.setCtx x v).sa = c.sa := rfl
@[simp] theorem Core.setCtx_field_comps (c : Core) (x : Nat) (v : Ctx) : (c.setCtx x v).comps = c.comps := rfl
@[simp] theorem Core.setCtx_field_chans (c : Core) (x : Nat) (v : Ctx) : (c.setCtx x v).chans = c.chans := rfl
@[simp] theorem Core.setCtx_field_now (c : Core) (x : Nat) (v : Ctx) : (c.setCtx x v).now = c.now := rfl
@[simp] theorem Core.setCtx_field_idle (c : Core) (x : Nat) (v : Ctx) : (c.setCtx x v).idle = c.idle := rfl
@[simp] theorem Core.setCtx_field_last (c : Core) (x : Nat) (v : Ctx) : (c.setCtx x v).last = c.last := rfl
@[simp] theorem Core.setCtx_field_frozen (c : Core) (x : Nat) (v : Ctx) : (c.setCtx x v).frozen = c.frozen := rfl
@[simp] theorem Core.setCtx_field_stalled (c : Core) (x : Nat) (v : Ctx) : (c.setCtx x v).stalled = c.stalled := rfl
@[simp] theorem Core.setCtx_field_req (c : Core) (x : Nat) (v : Ctx) : (c.setCtx x v).req = c.req := rfl
@[simp] theorem Core.setCtx_field_replay (c : Core) (x : Nat) (v : Ctx) : (c.setCtx x v).replay = c.replay := rfl
@[simp] theorem Core.setCtx_field_sconf (c : Core) (x : Nat) (v : Ctx) : (c.setCtx x v).sconf = c.sconf := rfl
@[simp] theorem Core.setCtx_field_confs (c : Core) (x : Nat) (v : Ctx) : (c.setCtx x v).confs = c.confs := rfl
@[simp] theorem Core.setCtx_field_confAt (c : Core) (x : Nat) (v : Ctx) : (c.setCtx x v).confAt = c.confAt := rfl
@[simp] theorem Core.setCtx_field_twin (c : Core) (x : Nat) (v : Ctx) : (c.setCtx x v).twin = c.twin := rfl
@[simp] theorem Core.setCtx_field_granted (c : Core) (x : Nat) (v : Ctx) : (c.setCtx x v).granted = c.granted := rfl
@[simp] theorem Core.setCtx_field_launch (c : Core) (x : Nat) (v : Ctx) : (c.setCtx x v).launch = c.launch := rfl
@[simp] theorem Core.setCtx_field_logical (c : Core) (x : Nat) (v : Ctx) : (c.setCtx x v).logical = c.logical := rfl
@[simp] theorem Core.setCtx_field_groupDone (c : Core) (x : Nat) (v : Ctx) : (c.setCtx x v).groupDone = c.groupDone := rfl
@[simp] theorem Core.setCtx_field_prevOwner (c : Core) (x : Nat) (v : Ctx) : (c.setCtx x v).prevOwner = c.prevOwner := rfl
@[simp] theorem Core.setCtx_field_l1sz (c : Core) (x : Nat) (v : Ctx) : (c.setCtx x v).l1sz = c.l1sz := rfl

/-! ### Compositions -/

theorem State.ctx_def (s : State) (k x : Nat) : s.ctx k x = (s.core k).ctx x := rfl
@[simp] theorem State.ctx_setCtx (s : State) (k x : Nat) (v : Ctx) : (s.setCtx k x v).ctx k x = v := by simp [State.ctx, State.setCtx]
@[simp] theorem State.core_modCore (s : State) (k : Nat) (f : Core → Core) : (s.modCore k f).core k = f (s.core k) := by simp [State.modCore]
@[simp] theorem State.ctx_modCtx (s : State) (k x : Nat) (f : Ctx → Ctx) : (s.modCtx k x f).ctx k x = f (s.ctx k x) := by simp [State.modCtx]
theorem State.modCore_modCore (s : State) (k : Nat) (f g : Core → Core) : (s.modCore k f).modCore k g = s.modCore k (fun c => g (f c)) := by
  simp [State.modCore]
theorem State.modCtx_eq (s : State) (k x : Nat) (f : Ctx → Ctx) :
    s.modCtx k x f = s.modCore k (fun c => c.setCtx x (f (c.ctx x))) := rfl
theorem State.modCtx_modCtx (s : State) (k x : Nat) (f g : Ctx → Ctx) : (s.modCtx k x f).modCtx k x g = s.modCtx k x (fun c => g (f c)) := by
  simp [State.modCtx_eq, State.modCore_modCore]

end Machine

end Sys2Proof
end

