-- ==== Sys2Proof/Laws/Issue.lean ====
section
/-! SUPPORT. What the issue of a bundle of one word can do: a trigger of a context that may issue runs its unit and ends the bundle. -/

namespace Sys2Proof.Machine

set_option Elab.async false

/-! ### Empty slots -/

theorem badUnit_zero : badUnit 0 = false := by decide
theorem mvIsPort_zero : mvIsPort 0 = false := by decide
theorem mvIsTrig_zero : mvIsTrig 0 = false := by decide
theorem badMove_zero : badMove 0 0 = false := by decide

theorem oneMove_moves (w : Nat) (h : w < 2 ^ 24) : (oneMove w).moves = [w, 0, 0, 0, 0, 0] := by
  rw [Bundle.moves, oneMove_m0 w h]; rfl
theorem oneMove_mat (w : Nat) : (oneMove w).mat.toNat = 0 := rfl
theorem oneMove_eng (w : Nat) : (oneMove w).eng.toNat = 0 := rfl
theorem oneMove_hdr (w : Nat) : (oneMove w).hdr.toNat = 0 := rfl
theorem oneMove_pool (w : Nat) : (oneMove w).pool = 0 := rfl
theorem bundleImm_oneMove (w : Nat) : bundleImm (oneMove w) = 0 := by
  rw [bundleImm, oneMove_hdr, oneMove_eng, oneMove_pool]; decide

/-- One legal move word and nothing else passes the static checks. -/
theorem staticFault_oneMove (w : Nat) (h : w < 2 ^ 24) (hu : badUnit w = false) (hm : badMove 0 w = false) :
    staticFault (oneMove w) = none := by
  have h1 : hdrIPF 0 = 0 := by decide
  have h2 : matIllegal 0 = false := by decide
  have h3 : engIllegal 0 0 0 = false := by decide
  simp [staticFault, oneMove_moves w h, oneMove_hdr, oneMove_mat, oneMove_eng, oneMove_pool, h1, h2, h3, firstSlot, clash, hu, hm,
    badUnit_zero, badMove_zero, mvIsPort_zero]

/-- The move of an empty slot: s0 to s0. -/
def emptyMove (s : State) (core x k : Nat) : Move := ⟨k, 0, s.readSrc core x 0 0 0⟩

theorem moveTakes_zero (c : Ctx) : moveTakes c 0 = true := rfl

theorem takenMoves_one (s : State) (core x w : Nat) (h : moveTakes (s.ctx core x) w = true) :
    s.takenMoves core x 0 0 0 [w, 0, 0, 0, 0, 0] =
      ⟨0, w, s.readSrc core x 0 0 (mvSrc w)⟩ :: [1, 2, 3, 4, 5].map (emptyMove s core x) := by
  simp [State.takenMoves, h, moveTakes_zero, emptyMove]; rfl

theorem takenMoves_none (s : State) (core x w : Nat) (h : moveTakes (s.ctx core x) w = false) :
    s.takenMoves core x 0 0 0 [w, 0, 0, 0, 0, 0] = [1, 2, 3, 4, 5].map (emptyMove s core x) := by
  simp [State.takenMoves, h, moveTakes_zero, emptyMove]; rfl

theorem emptyMove_toPort (s : State) (core x k : Nat) : (emptyMove s core x k).toPort = false := mvIsPort_zero
theorem emptyMove_isTrig (s : State) (core x k : Nat) : (emptyMove s core x k).isTrig = false := mvIsTrig_zero

theorem plainMove_empty (c : Ctx) (s : State) (core x k : Nat) : c.plainMove (emptyMove s core x k) = c := by
  have h : isWritable (mvDst 0) = false := by decide
  simp only [Ctx.plainMove, emptyMove, h, Bool.false_eq_true, if_false]

theorem foldl_plainMove_empty (c : Ctx) (s : State) (core x : Nat) (l : List Nat) :
    (l.map (emptyMove s core x)).foldl Ctx.plainMove c = c := by
  induction l with
  | nil => rfl
  | cons a t ih => rw [List.map_cons, List.foldl_cons, plainMove_empty, ih]

theorem writePorts_empty (c : Ctx) (s : State) (core x : Nat) (l : List Nat) : c.writePorts (l.map (emptyMove s core x)) = c := by
  induction l with
  | nil => rfl
  | cons a t ih =>
    rw [Ctx.writePorts, List.map_cons, List.foldl_cons, emptyMove_toPort]
    exact ih

theorem filter_trig_empty (s : State) (core x : Nat) (l : List Nat) : (l.map (emptyMove s core x)).filter Move.isTrig = [] := by
  induction l with
  | nil => rfl
  | cons a t ih => rw [List.map_cons, List.filter_cons_of_neg (by rw [emptyMove_isTrig]; decide), ih]

theorem filter_plain_empty (s : State) (core x : Nat) (l : List Nat) :
    (l.map (emptyMove s core x)).filter (fun m => !m.toPort) = l.map (emptyMove s core x) := by
  induction l with
  | nil => rfl
  | cons a t ih => rw [List.map_cons, List.filter_cons_of_pos (by rw [emptyMove_toPort]; rfl), ih]

theorem emptyMove_mark (s : State) (core x k : Nat) : (emptyMove s core x k).src.mark = (s.ctx core x).bank.mark 0 := rfl

theorem slotFaults_empty (s t : State) (core x n : Nat) (l : List Nat) : s.slotFaults core x (l.map (emptyMove t core x)) n = none := by
  induction l generalizing n with
  | nil => rfl
  | cons a l ih =>
    rw [List.map_cons, State.slotFaults]
    have h1 : badOverride (emptyMove t core x a) = false := by rw [badOverride, emptyMove_toPort]; rfl
    simp only [h1, emptyMove_isTrig, Bool.false_eq_true, if_false, Bool.false_and]
    exact ih n

/-! ### The trigger of a word -/

theorem filterMap_unit (g : Trig) (h : g.unit < 12) :
    (List.range 12).filterMap (fun u => [g].find? (fun t => t.unit == u)) = [g] := by
  have key : ∀ n, (List.range n).filterMap (fun u => [g].find? (fun t => t.unit == u)) = if g.unit < n then [g] else [] := by
    intro n
    induction n with
    | zero => rfl
    | succ k ih =>
      rw [List.range_succ, List.filterMap_append, ih]
      by_cases he : g.unit = k
      · simp [List.find?, he]
      · have hb : (g.unit == k) = false := by simpa using he
        have hl : g.unit < k + 1 ↔ g.unit < k := by omega
        simp [List.find?, hb, hl]
  rw [key, if_pos h]

theorem trigsOf_one (c : Ctx) (s : State) (core x : Nat) (m : Move) (l : List Nat) (ht : m.isTrig = true) (hu : m.unit < 12) :
    trigsOf c (m :: l.map (emptyMove s core x)) = [trigOfMove c m] := by
  rw [trigsOf, List.filter_cons_of_pos ht, filter_trig_empty]
  exact filterMap_unit _ hu

theorem bySlot_one (g : Trig) (h : g.slot = 0) : bySlot [g] = [g] := by
  simp [bySlot, List.range, List.range.loop, h]

/-! ### The checks of a free context -/

theorem settleLoops_core (s : State) (core x : Nat) :
    (s.settleLoops core x).core core = (s.core core).setCtx x { s.ctx core x with loops := (s.ctx core x).loops.settle } := by
  simp [State.settleLoops, State.modCtx, State.setCtx]

theorem settleLoops_ctx (s : State) (core x : Nat) :
    (s.settleLoops core x).ctx core x = { s.ctx core x with loops := (s.ctx core x).loops.settle } := by
  rw [State.ctx_def, settleLoops_core, Core.ctx_setCtx]

theorem settle_ml (u : LoopUnit) (h : u.ml.active = false) : u.settle.ml = u.ml := by
  simp [LoopUnit.settle, h]

theorem deliver_ctx_eq (k : Core) (x : Nat) : (k.deliver x).ctx x =
    { k.ctx x with
      bank := (k.ctx x).due.foldl Bank.deliver (k.ctx x).bank
      flight := (k.ctx x).flight.filter (fun f => decide ((k.ctx x).count < f.due))
      shadow := (k.ctx x).shadow.filter (fun f => decide ((k.ctx x).count < f.due)) } := by
  have : (k.deliver x).ctx x = ((k.setCtx x { k.ctx x with
      bank := (k.ctx x).due.foldl Bank.deliver (k.ctx x).bank
      flight := (k.ctx x).flight.filter (fun f => decide ((k.ctx x).count < f.due))
      shadow := (k.ctx x).shadow.filter (fun f => decide ((k.ctx x).count < f.due)) }).ctx x) := rfl
  rw [this, Core.ctx_setCtx]

theorem atIssue_ctx (s : State) (core x : Nat) : (s.atIssue core x).ctx core x =
    (((s.settleLoops core x).core core).deliver x).ctx x := by
  simp [State.atIssue, State.ctx_def]

/-- The fields of the issuing context that reading leaves alone. -/
theorem atIssue_ctx_fields (s : State) (core x : Nat) :
    let c := (s.atIssue core x).ctx core x
    c.count = (s.ctx core x).count ∧ c.recM = (s.ctx core x).recM ∧ c.recE = (s.ctx core x).recE ∧ c.part2 = (s.ctx core x).part2 ∧
    c.loops = (s.ctx core x).loops.settle ∧ c.priv = (s.ctx core x).priv ∧ c.setLen = (s.ctx core x).setLen ∧
    c.rept = (s.ctx core x).rept ∧ c.sys = (s.ctx core x).sys ∧ c.launch = (s.ctx core x).launch ∧ c.ports = (s.ctx core x).ports ∧
    c.pc = (s.ctx core x).pc ∧ c.pend = (s.ctx core x).pend ∧ c.tokens = (s.ctx core x).tokens := by
  have h : ((s.settleLoops core x).core core).ctx x = { s.ctx core x with loops := (s.ctx core x).loops.settle } := settleLoops_ctx s core x
  simp only [atIssue_ctx, deliver_ctx_eq, h, and_self]

theorem atIssue_core_mq (s : State) (core x : Nat) : ((s.atIssue core x).core core).mq = (s.core core).mq := by
  simp only [State.atIssue, State.core_modCore, settleLoops_core]; rfl
theorem atIssue_core_eq (s : State) (core x : Nat) : ((s.atIssue core x).core core).eq = (s.core core).eq := by
  simp only [State.atIssue, State.core_modCore, settleLoops_core]; rfl

theorem deliver_setCtx_self (k : Core) (x : Nat) : (k.deliver x).setCtx x ((k.deliver x).ctx x) = k.deliver x := by
  rw [deliver_ctx_eq]
  simp only [Core.deliver, Core.collide, Core.setCtx, Sp.put_put]

theorem atIssue_setCtx_self (s : State) (core x : Nat) : (s.atIssue core x).setCtx core x ((s.atIssue core x).ctx core x) = s.atIssue core x := by
  simp only [State.atIssue, State.setCtx, State.ctx_def, State.core_modCore, deliver_setCtx_self]
  simp only [State.modCore, State.setCore_setCore]

/-- What reading and the port writes of one trigger word give. -/
theorem readyFor_trig (s : State) (core x w : Nat) (hw : w < 2 ^ 24) (ht : mvIsTrig w = true) (hu : mvUnit w < 12)
    (hg : moveTakes ((s.atIssue core x).ctx core x) w = true) :
    (s.settleLoops core x).readyFor core x (oneMove w) =
      { s := s.atIssue core x
        ms := ⟨0, w, (s.atIssue core x).readSrc core x 0 0 (mvSrc w)⟩ :: [1, 2, 3, 4, 5].map (emptyMove (s.atIssue core x) core x)
        ts := [trigOfMove ((s.atIssue core x).ctx core x) ⟨0, w, (s.atIssue core x).readSrc core x 0 0 (mvSrc w)⟩] } := by
  have h1 : hdrIPF 0 = 0 := by decide
  have hm := takenMoves_one (s.atIssue core x) core x w hg
  have hp : ((s.atIssue core x).ctx core x).writePorts
      (⟨0, w, (s.atIssue core x).readSrc core x 0 0 (mvSrc w)⟩ :: [1, 2, 3, 4, 5].map (emptyMove (s.atIssue core x) core x)) =
      (s.atIssue core x).ctx core x := by
    have e : (Move.isTrig ⟨0, w, (s.atIssue core x).readSrc core x 0 0 (mvSrc w)⟩) = true := ht
    rw [Ctx.writePorts, List.foldl_cons, e]
    simp only [Bool.not_true, Bool.and_false, Bool.false_eq_true, if_false]
    exact writePorts_empty _ _ _ _ _
  have ha : (s.settleLoops core x).modCore core (fun k => k.deliver x) = s.atIssue core x := rfl
  simp only [State.readyFor, oneMove_hdr, oneMove_pool, oneMove_moves w hw, h1, ha]
  simp only [show BitVec.toNat (0 : BitVec 32) = 0 from rfl, hm, hp, atIssue_setCtx_self]
  rw [trigsOf_one _ _ _ _ _ _ (show Move.isTrig ⟨0, w, _⟩ = true from ht) hu]


/-! ### Empty slots 6 and 7 -/

theorem mtOp_zero : mtOp 0 = 0 := by decide
theorem egOp_zero : egOp 0 = 0 := by decide

theorem matFault_zero (s : State) (core x : Nat) (rp : Option Rept) : s.matFault core x 0 rp = none := by
  have h1 : mtMul 0 = false := by decide
  simp [State.matFault, mtSchedule, mtUses, mtOp_zero, h1]

theorem engFault_zero (s : State) (core x imm : Nat) : s.engFault core x 0 imm = none := by
  have h1 : egPhaser 0 = false := by decide
  have h2 : egChannel 0 = false := by decide
  have h3 : egBlock 0 = 0 := by decide
  simp [State.engFault, egSchedule, egOp_zero, h1, h2, h3]

theorem dispatchFault_oneMove (s : State) (core x w : Nat) (rp : Option Rept) : s.dispatchFault core x (oneMove w) rp = none := by
  have h1 : mtRegs 0 = [] := by decide
  have h2 : egRegs 0 = [] := by decide
  simp [State.dispatchFault, oneMove_mat, oneMove_eng, h1, h2, Ctx.regMark, matFault_zero, engFault_zero, bundleImm_oneMove]

theorem queueFault_oneMove (s : State) (core w : Nat) : s.queueFault core (oneMove w) = none := by
  have h : isTransferOp 0 = false := by decide
  simp [State.queueFault, State.engQueueFull, oneMove_eng, egOp_zero, h]

/-- The energy grant never holds a bundle of weight 0. -/
theorem holds_zero (p : Pair) : p.holds 0 = false := by simp [Pair.holds]

theorem earlyFault_oneMove (s : State) (core x w : Nat) (h : staticFault (oneMove w) = none)
    (hl : (s.ctx core x).loops.ml.active = false) : s.earlyFault core x (oneMove w) = none := by
  have h1 : hdrOPC 0 = false := by decide
  simp [State.earlyFault, h, oneMove_hdr, oneMove_mat, oneMove_eng, mtOp_zero, egOp_zero, h1, Modulo.leFault, hl]

/-! ### A trigger of a free context passes every check -/

/-- A bundle of one word consumes nothing that is marked when neither its guard nor any source of its moves is (R410). -/
theorem consumed_none (s : State) (core x w : Nat) (ms : List Move)
    (hg : (if mvGrd w = 0 then none else (s.ctx core x).bank.mark (0xA0 + mvGrd w)) = none)
    (hm : ∀ m ∈ ms, m.src.mark = none) : s.consumed core x [w, 0, 0, 0, 0, 0] ms = none := by
  have z : mvGrd 0 = 0 := by decide
  have hw : ∀ f : Nat → Nat → Option (Dw × Nat), [w, 0, 0, 0, 0, 0].mapIdx f = [f 0 w, f 1 0, f 2 0, f 3 0, f 4 0, f 5 0] := fun _ => rfl
  have hg' : (if mvGrd w = 0 then none else ((s.ctx core x).bank.mark (0xA0 + mvGrd w)).map (fun a => (a, 0))) = (none : Option (Dw × Nat)) := by
    split
    · rfl
    · rename_i hn; rw [if_neg hn] at hg; rw [hg]; rfl
  simp only [State.consumed, hw, List.findSome?_cons, hg', z, List.findSome?_nil, if_true, id_eq]
  exact List.findSome?_eq_none_iff.mpr (fun m h => by rw [hm m h]; rfl)

/-- The sources of empty slots are marked only where register 0 is. -/
theorem empty_marks (s : State) (core x : Nat) (l : List Nat) (h0 : (s.ctx core x).bank.mark 0 = none) :
    ∀ m ∈ l.map (emptyMove s core x), m.src.mark = none := by
  intro m hm
  obtain ⟨k, -, rfl⟩ := List.mem_map.mp hm
  rw [emptyMove_mark, h0]

theorem verdict_trig (s : State) (core x w : Nat) (hw : w < 2 ^ 24) (ht : mvIsTrig w = true) (hu : mvUnit w < 12)
    (hg : moveTakes ((s.atIssue core x).ctx core x) w = true)
    (h2 : (s.ctx core x).part2 = false) (hlost : (s.ctx core x).dueLost = false)
    (hsm : ((s.atIssue core x).readSrc core x 0 0 (mvSrc w)).mark = none)
    (hgm : (if mvGrd w = 0 then none else ((s.atIssue core x).ctx core x).bank.mark (0xA0 + mvGrd w)) = none)
    (h0 : ((s.atIssue core x).ctx core x).bank.mark 0 = none)
    (hp : s.passes core x (trigOfMove ((s.atIssue core x).ctx core x) ⟨0, w, (s.atIssue core x).readSrc core x 0 0 (mvSrc w)⟩) = true) :
    (s.settleLoops core x).verdict core x (oneMove w) = .go := by
  have hr := readyFor_trig s core x w hw ht hu hg
  have hd : ((s.settleLoops core x).ctx core x).dueLost = false := by rw [settleLoops_ctx]; exact hlost
  have hp2 : ((s.settleLoops core x).ctx core x).part2 = false := by rw [settleLoops_ctx]; exact h2
  generalize hG : trigOfMove ((s.atIssue core x).ctx core x) ⟨0, w, (s.atIssue core x).readSrc core x 0 0 (mvSrc w)⟩ = g at hr hp
  have hslot : g.slot = 0 := by rw [← hG]; rfl
  simp only [State.passes, Bool.and_eq_true, Option.isNone_iff_eq_none, Bool.not_eq_true'] at hp
  obtain ⟨⟨⟨⟨⟨⟨hf, ha⟩, hz⟩, hxi⟩, hlog⟩, hw8⟩, -⟩ := hp
  have hbo : badOverride ⟨0, w, (s.atIssue core x).readSrc core x 0 0 (mvSrc w)⟩ = false := by
    have : 4 ≤ mvPort w := by
      simp only [mvIsTrig, Bool.and_eq_true, decide_eq_true_eq] at ht; exact ht.2
    have h2 : (mvPort w == 2) = false := by rw [beq_eq_false_iff_ne]; omega
    simp only [badOverride, Move.port, h2, Bool.and_false, Bool.false_and]
  have hsf : (s.atIssue core x).slotFaults core x (⟨0, w, (s.atIssue core x).readSrc core x 0 0 (mvSrc w)⟩ ::
      [1, 2, 3, 4, 5].map (emptyMove (s.atIssue core x) core x)) 0 = none := by
    have hit : Move.isTrig ⟨0, w, (s.atIssue core x).readSrc core x 0 0 (mvSrc w)⟩ = true := ht
    simp only [State.slotFaults, hbo, hit, hG, hf, Bool.false_eq_true, if_false, if_true]
    exact slotFaults_empty _ _ _ _ _ _
  have hone : ∀ (f : Trig → Option Freeze), f g = none → [g].findSome? f = none := by intro f h; simp [h]
  have hone' : ∀ (f : Trig → Option Trap), f g = none → [g].findSome? f = none := by intro f h; simp [h]
  have hwait : ([g].any (fun t => t.unit == 3 && t.port == 16) && ((s.atIssue core x).ctx core x).tokens == 0) = false := by
    simpa [List.any] using hw8
  have hew : hdrEW 0 = 0 := by decide
  have hlo : ∀ ms : List Move, (Ready.mk (s.atIssue core x) ms [g]).logOver core x = false := by
    intro ms
    simp only [Ready.logOver, List.filter_cons, List.filter_nil]
    by_cases hn : ((s.atIssue core x).ctx core x).logsNow g = true
    · simp only [hn, Bool.true_and, decide_eq_false_iff_not] at hlog
      simp [hn]; omega
    · simp [hn]
  simp only [State.verdict, hr, hwait, hsf, hp2, dispatchFault_oneMove, queueFault_oneMove, oneMove_moves w hw, hd,
    State.firstFreeze, bySlot_one g hslot, hone _ hz, hone' _ ha, oneMove_hdr, hew, holds_zero, hlo, hxi, Bool.and_false, Bool.false_eq_true, if_false]
  rw [consumed_none _ _ _ _ _ hgm (List.forall_mem_cons.mpr ⟨hsm, empty_marks _ _ _ _ h0⟩)]

/-! ### The issue of one trigger -/

/-- What a trigger of a free context does: its accesses are located in the state in which the moves have read, its unit runs there, then the
bundle ends. -/
def State.afterTrig (s : State) (core x : Nat) (g : Trig) : State :=
  let c0 := (s.settleLoops core x).ctx core x
  let w := State.walkTrigs core x [g] (s.inTrigger core x g.unit)
  let t := trigRun c0.sys.fp c0.sys.bound core x (w.1, { pieces := w.2 }) g
  ((t.1.modCtx core x (fun c => c)).dispatch core x {}).finish core x c0 0 t.2

/-- A trigger whose accesses are located at pieces. -/
theorem walkTrigs_one (core x : Nat) (g : Trig) (s r : State) (ps : List Piece)
    (h : State.locateAll core x (s.wantsOf core x g).1 (s.wantsOf core x g).2 s = .ok (r, ps)) :
    State.walkTrigs core x [g] s = (r, if ps.isEmpty then [] else [(g.unit, ps)]) := by
  simp only [State.walkTrigs, h]

/-- A trigger without accesses. -/
theorem walkTrigs_nothing (core x : Nat) (g : Trig) (s : State) (h : (s.wantsOf core x g).2 = []) :
    State.walkTrigs core x [g] s = (s, []) :=
  walkTrigs_one core x g s s [] (by rw [h]; rfl)

/-- Units other than LS, LV, AT and SA make no accesses. -/
theorem wantsOf_plain (s : State) (core x : Nat) (g : Trig) (h : g.unit ≠ 4 ∧ g.unit ≠ 5 ∧ g.unit ≠ 6 ∧ g.unit ≠ 11) :
    s.wantsOf core x g = (0, []) := by
  obtain ⟨h4, h5, h6, h11⟩ := h
  unfold State.wantsOf; split <;> first | contradiction | rfl

theorem snapshot_idle (c : Ctx) (h : c.loops.ml.active = false) : c.snapshot = c := by
  simp [Ctx.snapshot, h]

theorem filter_ne_self (l : List Nat) (k : Nat) (h : l.contains k = false) : l.filter (fun j => j != k) = l := by
  rw [List.filter_eq_self]
  intro a ha
  simp only [bne_iff_ne, ne_eq]
  rintro rfl
  rw [List.contains_iff_mem.mpr ha] at h; cases h

/-- The facts that `free` gives. -/
theorem free_facts (s : State) (core x : Nat) (h : s.free core x = true) :
    s.focus = core ∧ (s.core core).run = some x ∧ (s.core core).frozen = none ∧ (s.core core).arrayBehind = false ∧
    (s.core core).mq.length < 16 ∧ (s.core core).eq.length < 16 ∧ (s.core core).stalled = false ∧ (s.ctx core x).asyncDue = false ∧ (s.ctx core x).lateData = false ∧
    (s.ctx core x).dueLost = false ∧ (s.ctx core x).part2 = false ∧ (s.ctx core x).loops.ml.active = false ∧
    s.replays.contains core = false ∧ (s.upperOf core).any s.replays.contains = false ∧ s.diverges.contains core = false := by
  simp only [State.free, Bool.and_eq_true, decide_eq_true_eq, Bool.not_eq_true', Option.isNone_iff_eq_none] at h
  obtain ⟨⟨⟨⟨⟨⟨⟨⟨⟨⟨⟨⟨⟨⟨h1, h2⟩, h3⟩, hs⟩, h4⟩, h5⟩, h6⟩, h7⟩, h8⟩, h9⟩, h10⟩, h11⟩, h12⟩, h14⟩, h13⟩ := h
  exact ⟨h1, h2, h3, h4, h5, h6, hs, h7, h8, h9, h10, h11, h12, h14, h13⟩

/-- A free context's bundle of one word reaches its verdict with nothing in the way (R119 steps 1 to 5). -/
theorem arriveAt_oneMove (s : State) (core x w : Nat) (hf : s.free core x = true) (hs : staticFault (oneMove w) = none) :
    s.arriveAt core x (oneMove w) = (s.settleLoops core x, (s.settleLoops core x).verdict core x (oneMove w)) := by
  obtain ⟨-, -, h3, h4, h5, h6, -, -, h8, -, h10, h11, -, -, -⟩ := free_facts s core x hf
  have e1 : ((s.settleLoops core x).ctx core x).lateData = false := by rw [settleLoops_ctx]; exact h8
  have e2 : ((s.settleLoops core x).ctx core x).part2 = false := by rw [settleLoops_ctx]; exact h10
  have e3 : ((s.settleLoops core x).modCore core (fun k => k.deliver x)).earlyFault core x (oneMove w) = none := by
    refine earlyFault_oneMove _ _ _ _ hs ?_
    have := (atIssue_ctx_fields s core x).2.2.2.2.1
    simp only [State.atIssue] at this
    rw [this, settle_ml _ h11]; exact h11
  have e4 : (s.core core).slipFull = false := by simp only [Core.slipFull, Bool.or_eq_false_iff, decide_eq_false_iff_not]; omega
  have e5 : hdrAM 0 = false := by decide
  have e6 : hdrAE 0 = false := by decide
  simp [State.arriveAt, h3, h4, e1, e2, e3, e4, oneMove_hdr, e5, e6]

/-- A bundle that no replay strikes meets no timing check. -/
theorem replayBoth_idle (s : State) (core : Nat) (h1 : s.replays.contains core = false)
    (h2 : (s.upperOf core).any s.replays.contains = false) : s.replayBoth core = s := by
  have e : ∀ k, s.replays.contains k = false → s.replayAt k = s := fun k hk => by
    simp only [State.replayAt, hk, Bool.false_eq_true, if_false]
  unfold State.replayBoth
  cases hu : s.upperOf core with
  | none => exact e core h1
  | some up =>
    rw [hu] at h2
    show (s.replayAt core).replayAt up = s
    rw [e core h1, e up h2]

/-- Loops that have run out change no core's launch. -/
theorem settleLoops_upperOf (s : State) (core x : Nat) : (s.settleLoops core x).upperOf core = s.upperOf core := by
  have h : ((s.settleLoops core x).core core).launch = (s.core core).launch := by rw [settleLoops_core]; rfl
  simp only [State.upperOf, State.launchOf, h]; rfl

/-- Without triggers the twins agree. -/
theorem twinsDiffer_none (s : State) (core x : Nat) : s.twinsDiffer core x [] = false := by
  unfold State.twinsDiffer; split <;> rfl

theorem commit_free (s : State) (core x : Nat) (b : Bundle) (h0 : s.replays.contains core = false)
    (hu : (s.upperOf core).any s.replays.contains = false) (h2 : s.diverges.contains core = false)
    (h3 : s.mismatch core x b = false) : s.commit core x b = s.effects core x b := by
  have e : ({ s with diverges := s.diverges.filter (fun j => j != core) } : State) = s := by rw [filter_ne_self _ _ h2]
  simp only [State.commit, replayBoth_idle s core h0 hu, h2, h3, Bool.false_eq_true, if_false, Bool.false_and, Bool.or_self]
  rw [e]

/-! ### Stalls and the plain moves of the last bundle -/

/-- A core that does not stall issues at once. -/
theorem issueOn_running (s : State) (core x : Nat) (b : Bundle) (h : (s.core core).stalled = false) :
    s.issueOn core x b = s.issueNow core x b := by
  simp only [State.issueOn, h, Bool.false_eq_true, if_false]

/-- A stall that goes on issues nothing. -/
theorem issueOn_stalls (s : State) (core x : Nat) (b : Bundle) (h : (s.core core).stalled = true)
    (hk : ((s.core core).endStall x).stalled = true) : s.issueOn core x b = s := by
  simp only [State.issueOn, h, if_true, State.core_modCore, hk]

/-- The end of a gap touches no context. -/
theorem endGap_ctx (k : Core) (x : Nat) : k.endGap.ctx x = k.ctx x := by unfold Core.endGap; split <;> rfl
theorem endStall_ctx (k : Core) (x y : Nat) : (k.endStall x).ctx y = k.ctx y := by
  unfold Core.endStall; split
  · exact endGap_ctx k y
  · rfl

/-- The registers after the plain moves of the last bundle are written. -/
theorem landPlain_bank (k : Core) (x : Nat) :
    ((k.landPlain x).ctx x).bank = (k.ctx x).plainDue.foldl Bank.deliver (k.ctx x).bank := by
  simp only [Core.landPlain, Core.collide, Core.ctx, Core.setCtx, Sp.get_put_same]

/-- The issue of a trigger by a free context. -/
theorem issue_word (s : State) (core x w : Nat) (hw : w < 2 ^ 24) (ht : mvIsTrig w = true) (hu : mvUnit w < 12)
    (hs : staticFault (oneMove w) = none) (hf : s.free core x = true)
    (hg : moveTakes ((s.atIssue core x).ctx core x) w = true)
    (hsm : ((s.atIssue core x).readSrc core x 0 0 (mvSrc w)).mark = none)
    (hgm : (if mvGrd w = 0 then none else ((s.atIssue core x).ctx core x).bank.mark (0xA0 + mvGrd w)) = none)
    (h0 : ((s.atIssue core x).ctx core x).bank.mark 0 = none)
    (hp : s.passes core x (trigOfMove ((s.atIssue core x).ctx core x) ⟨0, w, (s.atIssue core x).readSrc core x 0 0 (mvSrc w)⟩) = true) :
    issueBundle (oneMove w) s =
      s.afterTrig core x (trigOfMove ((s.atIssue core x).ctx core x) ⟨0, w, (s.atIssue core x).readSrc core x 0 0 (mvSrc w)⟩) := by
  obtain ⟨f1, f2, f3, -, -, -, fs, f7, -, f9, f10, f11, f12, f14, f13⟩ := free_facts s core x hf
  have hv := verdict_trig s core x w hw ht hu hg f10 f9 hsm hgm h0 hp
  have hr := readyFor_trig s core x w hw ht hu hg
  generalize hG : trigOfMove ((s.atIssue core x).ctx core x) ⟨0, w, (s.atIssue core x).readSrc core x 0 0 (mvSrc w)⟩ = g at hr
  have hp2 : ((s.settleLoops core x).ctx core x).part2 = false := by rw [settleLoops_ctx]; exact f10
  have hport : mvIsPort w = true := by simp only [mvIsTrig, Bool.and_eq_true] at ht; exact ht.1
  have hsn : ((s.atIssue core x).modCtx core x (fun c => c.snapshot.consumeD [g])) =
      (s.atIssue core x).modCtx core x (fun c => c.consumeD [g]) := by
    have : ((s.atIssue core x).ctx core x).loops.ml.active = false := by
      rw [(atIssue_ctx_fields s core x).2.2.2.2.1, settle_ml _ f11]; exact f11
    simp only [State.modCtx, snapshot_idle _ this]
  have hfl : ∀ c : Ctx, ((⟨0, w, (s.atIssue core x).readSrc core x 0 0 (mvSrc w)⟩ ::
      [1, 2, 3, 4, 5].map (emptyMove (s.atIssue core x) core x)).filter (fun m => !m.toPort)).foldl Ctx.plainMove c = c := by
    intro c
    have hn : ¬ ((!(Move.toPort ⟨0, w, (s.atIssue core x).readSrc core x 0 0 (mvSrc w)⟩)) = true) := by
      rw [show Move.toPort ⟨0, w, _⟩ = true from hport]; decide
    rw [List.filter_cons_of_neg (p := fun m : Move => !m.toPort) hn, filter_plain_empty]
    exact foldl_plainMove_empty _ _ _ _ _
  have hdis : ∀ t : State, t.dispatch core x (oneMove w) = t.dispatch core x {} := by intro t; rfl
  have hagree : (s.settleLoops core x).mismatch core x (oneMove w) = false := by
    simp only [State.passes, Bool.and_eq_true, Bool.not_eq_true', hG] at hp
    simp only [State.mismatch, hr]
    exact hp.2
  simp only [issueBundle, f1, f2, State.issueOn, State.issueNow, fs, f7, Bool.false_and, arriveAt_oneMove s core x w hf hs, hv,
    Bool.false_eq_true, if_false]
  rw [commit_free (s.settleLoops core x) core x (oneMove w) f12 (by rw [settleLoops_upperOf]; exact f14) f13 hagree]
  simp only [State.effects, State.runTrigs, hr, hp2, List.foldl_cons, List.foldl_nil, hsn, hfl, hdis, oneMove_hdr, State.afterTrig,
    Bool.false_eq_true, if_false]
  rfl

theorem trigger_eq (s : State) (core x u p : Nat) (m : MoveHead) (hu : u < 12) (hp : p < 32) :
    trigOfMove ((s.atIssue core x).ctx core x) ⟨0, encodeTrig u p m, (s.atIssue core x).readSrc core x 0 0 m.src.toNat⟩ =
      s.trigger core x u p m := by
  have hw : (mvW (encodeTrig u p m) = 0) = (m.w = 0) := by
    rw [encodeTrig_w u p m (by omega) hp, eq_iff_iff]
    exact ⟨fun h => BitVec.eq_of_toNat_eq h, fun h => by rw [h]; rfl⟩
  simp only [trigOfMove, State.trigger, Move.unit, Move.port, encodeTrig_unit u p m (by omega) hp, encodeTrig_port u p m (by omega) hp,
    resultReg, hw]
  cases (((s.atIssue core x).ctx core x).unit u).d <;> cases ((s.atIssue core x).readSrc core x 0 0 m.src.toNat).reg <;> simp

/-- The issue of a trigger at port p of unit u, with its head, by a context that may trigger. -/
theorem issue_trig (s : State) (core x u p : Nat) (m : MoveHead) (hu : u < 12) (h4 : 4 ≤ p) (hp : p ≤ lastPort u)
    (h : s.mayTrigger core x m = true) (hpass : s.passes core x (s.trigger core x u p m) = true) :
    issueBundle (oneMove (encodeTrig u p m)) s = s.afterTrig core x (s.trigger core x u p m) := by
  have hl := lastPort_lt u
  have hp' : p < 32 := by omega
  simp only [State.mayTrigger, Bool.and_eq_true] at h
  obtain ⟨⟨hok, hfree⟩, htk⟩ := h
  simp only [State.takes, Bool.and_eq_true, Bool.or_eq_true, decide_eq_true_eq, Option.isNone_iff_eq_none] at htk
  obtain ⟨⟨⟨t1, t2⟩, t3⟩, t4⟩ := htk
  have e1 := encodeTrig_src u p m (by omega) hp'
  have e2 := encodeTrig_grd u p m (by omega) hp'
  have e3 := encodeTrig_inv u p m (by omega) hp'
  have hwlt := encodeTrig_lt u p m (by omega) hp'
  have hmain := issue_word s core x (encodeTrig u p m) hwlt (mvIsTrig_encodeTrig u p m hu h4 hp')
    (by rw [encodeTrig_unit u p m (by omega) hp']; exact hu)
    (staticFault_oneMove _ hwlt (badUnit_encodeTrig u p m hu hp') (badMove_encodeTrig u p m hu h4 hp hok)) hfree
    (by rw [moveTakes, e2, e3, t1]; rfl) (by rw [e1]; exact t3)
    (by rw [e2]; split
        · rfl
        · exact t2.resolve_left (by assumption)) t4
  rw [e1, trigger_eq s core x u p m hu hp'] at hmain
  exact hmain hpass

theorem setPair_setCore (s : State) (p k : Nat) (v : Pair) (c : Core) : (s.setPair p v).setCore k c = (s.setCore k c).setPair p v := rfl

theorem advance_plain (c c0 : Ctx) (h : c.loops.ml.active = false) : (c.advance 0 {}).issued c0 = c.after c0 := by
  have hle : c.loopEnd 0 {} = (c, none) := by simp [Ctx.loopEnd, h]
  simp only [Ctx.advance, hle, Ctx.issued, Ctx.after]
  cases (advancePend c.pend).2 <;> rfl

theorem releasePass_idle (s : State) (core x : Nat) (h : (s.ctx core x).loops.ml.active = false) : s.releasePass core x = s := by
  have : (s.ctx core x).loops.ml.releaseDue = none := by simp [Modulo.releaseDue, h]
  simp only [State.releasePass, this]

/-- A bundle of weight 0 adds nothing to the sum of its pair, in either mode. -/
theorem charge_zero (p : Pair) : p.charge 0 = (p.charged, false) := by
  have hm : min 0xFFFF (min 0xFFFF p.sum) = min 0xFFFF p.sum := by omega
  simp only [Pair.charge, Pair.charged, Nat.add_zero, ne_eq, not_true_eq_false, false_and, and_false, if_false, hm]
  split <;> rfl

/-- The end of a bundle of weight 0 without a transfer, outside a modulo loop. -/
theorem finish_plain (r : State) (core x : Nat) (c0 : Ctx) (hml : (r.ctx core x).loops.ml.active = false) :
    r.finish core x c0 0 {} = r.ends core x c0 := by
  have h1 : hdrEW 0 = 0 := by decide
  have h2 : hdrOPC 0 = false := by decide
  have h3 : hdrLE 0 = 0 := by decide
  have hml' : ((r.core core).ctx x).loops.ml.active = false := hml
  have hk : ∀ (k : Core) (v : Ctx) (n : Nat), Core.ctx { k.setCtx x v with now := n, stalled := false } x = v :=
    fun k v _ => Core.ctx_setCtx k x v
  have hg : ∀ (k : Core), Core.ctx { k with granted := false } x = k.ctx x := fun _ => rfl
  simp only [State.finish, State.ends, h1, h2, h3, Bool.false_eq_true, if_false, State.charge, charge_zero, if_true]
  rw [releasePass_idle]
  · simp only [State.modCtx_eq, State.modCore, State.modPair, State.core_setPair, State.core_setCore, advance_plain _ _ hml',
      State.pair_setCore, setPair_setCore, State.setCore_setCore, hg]
    rfl
  · simp only [State.modCtx_eq, State.modCore, State.core_setCore, State.core_setPair, State.ctx_def,
      advance_plain _ _ hml', hk, hg]
    exact hml'

/-- Empty slots 6 and 7 enter the queues that are not empty, and do nothing else. -/
theorem dispatch_empty (r : State) (core x : Nat) :
    r.dispatch core x {} = r.modCore core (fun k => (k.nops x).setCtx x (k.ctx x)) := by
  have hm : BitVec.toNat (({} : Bundle).mat) = 0 := rfl
  have he : BitVec.toNat (({} : Bundle).eng) = 0 := rfl
  have hi : bundleImm {} = 0 := by decide
  have hr : ∀ (c : Ctx) rp, c.reptWrites 0 rp = [] := by
    intro c rp; cases rp <;> simp [Ctx.reptWrites, mtOp_zero]
  simp only [State.dispatch, hm, hi, hr, List.foldl_nil]
  simp only [State.matDispatch, mtOp_zero, if_true, State.engDispatch, egOp_zero]
  simp only [State.modCtx_eq, State.modCore]
  cases hq : (r.core core).mq <;> cases hq2 : (r.core core).eq <;>
    simp [Core.nops, hq, hq2, Core.setCtx, Core.ctx]

/-- The end of a bundle whose one effect is f on its context, when no modulo loop runs after it. -/
theorem finish_ctx (r : State) (core x : Nat) (c0 : Ctx) (f : Ctx → Ctx) (hml : (f (r.ctx core x)).loops.ml.active = false) :
    (((r.modCtx core x f).modCtx core x (fun c => c)).dispatch core x {}).finish core x c0 0 {} =
      (r.modCore core (fun k => (k.nops x).setCtx x (f (k.ctx x)))).ends core x c0 := by
  have hd : ((r.modCtx core x f).modCtx core x (fun c => c)).dispatch core x {} =
      r.modCore core (fun k => (k.nops x).setCtx x (f (k.ctx x))) := by
    rw [State.modCtx_modCtx, dispatch_empty, State.modCtx_eq, State.modCore_modCore]
    congr 1; funext k
    simp [Core.nops, Core.setCtx, Core.ctx, Sp.put_put]
  have hml' : (f ((r.core core).ctx x)).loops.ml.active = false := hml
  rw [hd, finish_plain _ _ _ _ (by simpa [State.ctx_def, State.modCore] using hml')]

/-- The context before the bundle enters its end only through what the results due raise. -/
theorem ends_settled (r s : State) (core x : Nat) : r.ends core x ((s.settleLoops core x).ctx core x) = r.ends core x (s.ctx core x) := by
  rw [settleLoops_ctx]; rfl

/-- What a trigger's bundle ends with, when its unit leaves a state r, no transfer and no modulo loop. -/
theorem afterTrig_closes (s r : State) (core x : Nat) (g : Trig)
    (h : ∀ fp b, let w := State.walkTrigs core x [g] (s.inTrigger core x g.unit)
      trigRun fp b core x (w.1, { pieces := w.2 }) g = (r, { pieces := w.2 })) (hml : (r.ctx core x).loops.ml.active = false) :
    s.afterTrig core x g = r.closes core x (s.ctx core x) := by
  have hfx : ∀ (t : State) (c : Ctx) (ps : List (Nat × List Piece)), t.finish core x c 0 { pieces := ps } = t.finish core x c 0 {} :=
    fun _ _ _ => rfl
  have hid : (r.modCtx core x (fun c => c)).ctx core x = r.ctx core x := by rw [State.ctx_modCtx]
  simp only [State.afterTrig, h, hfx]
  rw [dispatch_empty, finish_plain _ _ _ _ (by simpa [State.ctx_def, State.modCtx, State.setCtx, State.modCore] using hml), ends_settled]
  simp only [State.ends, State.closes, State.modCtx_eq, State.modCore, State.core_setCore, State.setCore_setCore]
  simp only [Core.nops, Core.setCtx, Core.ctx, Sp.put_put, Sp.get_put_same]
  congr 1
  simp only [State.pairOf, State.core_setCore]

/-- The issue of a trigger whose unit leaves a state r, from the pieces that its accesses are located at. -/
theorem issue_closes (s r : State) (core x u p : Nat) (m : MoveHead) (hu : u < 12) (h4 : 4 ≤ p) (hp : p ≤ lastPort u)
    (h : s.mayTrigger core x m = true) (hpass : s.passes core x (s.trigger core x u p m) = true)
    (hrun : ∀ fp b, let w := State.walkTrigs core x [s.trigger core x u p m] (s.inTrigger core x u)
      trigRun fp b core x (w.1, { pieces := w.2 }) (s.trigger core x u p m) = (r, { pieces := w.2 }))
    (hml : (r.ctx core x).loops.ml.active = false) :
    issueBundle (oneMove (encodeTrig u p m)) s = r.closes core x (s.ctx core x) := by
  rw [issue_trig s core x u p m hu h4 hp h hpass]
  exact afterTrig_closes s r core x _ hrun hml

/-- A trigger without accesses whose unit changes its context alone. -/
theorem issue_effect (s : State) (core x u p : Nat) (m : MoveHead) (f : Ctx → Ctx) (hu : u < 12)
    (hpl : u ≠ 4 ∧ u ≠ 5 ∧ u ≠ 6 ∧ u ≠ 11) (h4 : 4 ≤ p) (hp : p ≤ lastPort u)
    (h : s.mayTrigger core x m = true) (hpass : s.passes core x (s.trigger core x u p m) = true)
    (hrun : ∀ fp b r, trigRun fp b core x r (s.trigger core x u p m) = (r.1.modCtx core x f, r.2))
    (hml : ∀ c : Ctx, (f c).loops.ml.active = c.loops.ml.active) :
    issueBundle (oneMove (encodeTrig u p m)) s = s.issued core x (fun c => f (c.consumeD [s.trigger core x u p m])) := by
  have hfree : s.free core x = true := by
    simp only [State.mayTrigger, Bool.and_eq_true] at h; exact h.1.2
  have f11 := (free_facts s core x hfree).2.2.2.2.2.2.2.2.2.2.2.1
  rw [issue_trig s core x u p m hu h4 hp h hpass]
  have hw := walkTrigs_nothing core x (s.trigger core x u p m) (s.inTrigger core x u) (by rw [wantsOf_plain _ _ _ _ hpl])
  have hin : s.inTrigger core x u = (s.atIssue core x).modCtx core x (fun c => c.consumeD [s.trigger core x u p m]) := rfl
  simp only [State.afterTrig, show (s.trigger core x u p m).unit = u from rfl, hw, hrun]
  rw [hin, State.modCtx_modCtx (s.atIssue core x) core x _ f, finish_ctx]
  · rw [ends_settled]; rfl
  · rw [hml, Ctx.consumeD]
    have : ((s.atIssue core x).ctx core x).loops.ml.active = false := by
      rw [(atIssue_ctx_fields s core x).2.2.2.2.1, settle_ml _ f11]; exact f11
    simpa [Ctx.setUnit] using this

/-! ### What the twins of a tidelocked group see (R45, R46) -/

theorem asUpper_core (s : State) (core : Nat) (t : TwinStore) : (s.asUpper core t).core core = (s.core core).asUpper t := by
  simp [State.asUpper]
theorem asUpper_ctx (s : State) (core x : Nat) (t : TwinStore) : (s.asUpper core t).ctx core x = s.ctx core x := by
  rw [State.ctx, asUpper_core]; rfl
theorem asUpper_sysRead (s : State) (core x : Nat) (t : TwinStore) (fp : BitVec 5) (b : Bool) (n : Nat) :
    (s.asUpper core t).sysRead core x fp b n = s.sysRead core x fp b n := by
  unfold State.sysRead State.pairOf
  rw [asUpper_core]
  rfl

theorem endModulo_idle (s : State) (core x : Nat) (h : (s.ctx core x).loops.ml.active = false) : s.endModulo core x = s := by
  simp [State.endModulo, h]


theorem setLevel_ml (u : LoopUnit) (k : Nat) (l : Level) : (u.setLevel k l).ml = u.ml := by
  unfold LoopUnit.setLevel; split; · rfl
  split <;> rfl

/-- Two states agree on what a trigger without accesses sees of a context: the context, its program's registers, and what is on its way. -/
def seesSame (core x : Nat) (a b : State) : Prop := a.ctx core x = b.ctx core x ∧ a.saSteps = b.saSteps

theorem seesSame_modCtx {core x : Nat} {a b : State} (h : seesSame core x a b) (f : Ctx → Ctx) :
    seesSame core x (a.modCtx core x f) (b.modCtx core x f) := by
  refine ⟨?_, h.2⟩
  simp only [State.modCtx, State.ctx, State.setCtx, State.core_setCore, Core.setCtx, Core.ctx, Sp.get_put_same]
  exact congrArg f h.1

theorem seesSame_idle {core x : Nat} {a b : State} (h : seesSame core x a b) (hl : (b.ctx core x).loops.ml.active = false) :
    seesSame core x (a.endModulo core x) (b.endModulo core x) := by
  rw [endModulo_idle b core x hl, endModulo_idle a core x (by rw [h.1]; exact hl)]
  exact h

/-- A trigger of a unit without accesses, outside a modulo loop, gives both twins the same results (R46). -/
theorem trigRun_asUpper (fp : BitVec 5) (bound : Bool) (core x : Nat) (s : State) (t : TwinStore) (fx : Fx) (g : Trig)
    (h : g.unit ≠ 4 ∧ g.unit ≠ 5 ∧ g.unit ≠ 6 ∧ g.unit < 11) (hl : (s.ctx core x).loops.ml.active = false) :
    seesSame core x (trigRun fp bound core x (s.asUpper core t, fx) g).1 (trigRun fp bound core x (s, fx) g).1 := by
  have h0 : seesSame core x (s.asUpper core t) s := ⟨asUpper_ctx s core x t, rfl⟩
  have he := seesSame_idle h0 hl
  have hr (lat : Nat) (v : Val) (fl : Flags) : seesSame core x ((s.asUpper core t).result core x g lat v fl) (s.result core x g lat v fl) :=
    seesSame_modCtx h0 _
  obtain ⟨h4, h5, h6, h11⟩ := h
  unfold trigRun
  split
  · exact hr _ _ _
  · exact hr _ _ _
  · exact hr _ _ _
  · split
    · exact he
    · exact he
    · unfold ctBnz; split
      · exact he
      · exact h0
    · unfold ctBz; split
      · exact he
      · exact h0
    · unfold ctCall
      simp only [asUpper_ctx]
      exact seesSame_idle (seesSame_modCtx h0 _) (by
        simp only [State.modCtx, State.ctx, State.setCtx, State.core_setCore, Core.setCtx, Core.ctx, Sp.get_put_same]; exact hl)
    · exact he
    · exact seesSame_modCtx he _
    · exact seesSame_modCtx he _
    · unfold ctLbrk ctBr
      simp only [asUpper_ctx]
      have hm (f : Ctx → Ctx) (hf : (f (s.ctx core x)).loops.ml = (s.ctx core x).loops.ml) :
          seesSame core x (((s.asUpper core t).modCtx core x f).endModulo core x) ((s.modCtx core x f).endModulo core x) :=
        seesSame_idle (seesSame_modCtx h0 f) (by
          simp only [State.modCtx, State.ctx, State.setCtx, State.core_setCore, Core.setCtx, Core.ctx, Sp.get_put_same]
          exact (congrArg Modulo.active hf).trans hl)
      split
      · split
        · exact he
        · exact hm _ (setLevel_ml _ _ _)
      · exact he
    · exact seesSame_modCtx h0 _
    · exact h0
    · exact h0
    · exact seesSame_modCtx h0 _
    · refine ⟨?_, rfl⟩
      simp only [ctWarm, State.ctx, State.core_modCore, asUpper_core]
      rfl
    · unfold ctSysr
      rw [asUpper_sysRead]
      exact seesSame_modCtx h0 _
    · exact h0
    · exact he
  · exact absurd ‹_› h4
  · exact absurd ‹_› h5
  · exact absurd ‹_› h6
  · unfold vaRun; rw [asUpper_ctx]; dsimp only; split
    · exact seesSame_modCtx (hr _ _ _) _
    · exact hr _ _ _
  · unfold vaRun; rw [asUpper_ctx]; dsimp only; split
    · exact seesSame_modCtx (hr _ _ _) _
    · exact hr _ _ _
  · exact hr _ _ _
  · exact hr _ _ _
  · rename_i n0 n1 n2 n3 n4 n5 n6 n7 n8 n9 n10
    simp only [imp_false] at n0 n1 n2 n3 n4 n5 n6 n7 n8 n9 n10
    omega

/-- Triggers of a unit without accesses never make the twins differ, but for a sysr of a register that they read otherwise (R46). -/
theorem twinsDiffer_plain (s : State) (core x : Nat) (g : Trig) (h : g.unit ≠ 4 ∧ g.unit ≠ 5 ∧ g.unit ≠ 6 ∧ g.unit < 11)
    (hs : g.unit = 3 → g.port = 18 → s.twinReadsOther core g.ts.toNat = false) (hl : (s.ctx core x).loops.ml.active = false) :
    s.twinsDiffer core x [g] = false := by
  unfold State.twinsDiffer
  split
  · rfl
  · rename_i t _
    have hw (u : State) : State.walkTrigs core x [g] u = (u, []) :=
      walkTrigs_nothing core x g u (by rw [wantsOf_plain u core x g ⟨h.1, h.2.1, h.2.2.1, by omega⟩])
    have hm : (s.asUpper core t).modCtx core x (fun c => (c.snapshot).consumeD [g])
        = (s.modCtx core x (fun c => (c.snapshot).consumeD [g])).asUpper core t := by
      simp only [State.modCtx, State.setCtx, State.asUpper, State.modCore, State.ctx, State.core_setCore, State.setCore_setCore]
      rfl
    have hs' : (g.unit == 3 && g.port == 18 && s.twinReadsOther core g.ts.toNat) = false := by
      by_cases hu : g.unit = 3 ∧ g.port = 18
      · rw [hs hu.1 hu.2, Bool.and_false]
      · simp only [Bool.and_eq_false_iff, beq_eq_false_iff_ne]
        exact Or.inl (Decidable.not_and_iff_or_not.1 hu)
    have hr := trigRun_asUpper (s.ctx core x).sys.fp (s.ctx core x).sys.bound core x (s.modCtx core x (fun c => (c.snapshot).consumeD [g])) t
      { pieces := [] } g h (by
        simp only [State.modCtx, State.ctx, State.setCtx, State.core_setCore, Core.setCtx, Core.ctx, Sp.get_put_same]
        rw [show Sp.get {} (s.core core).ctxs x = s.ctx core x from rfl, snapshot_idle _ hl]
        unfold Ctx.consumeD
        exact hl)
    simp only [State.runTrigs, hw, hm, List.foldl_cons, List.foldl_nil, hr.1, hr.2, List.any_cons, List.any_nil, hs', bne_self_eq_false,
      Bool.or_self, Bool.and_false]

/-- A trigger of a unit without accesses passes its own checks when its configuration and operands are legal. -/
theorem passes_plain (s : State) (core x : Nat) (g : Trig) (h4 : g.unit ≠ 4) (h5 : g.unit ≠ 5) (h6 : g.unit ≠ 6) (h11 : g.unit < 11)
    (h3 : g.unit = 3 → g.port ≠ 16 ∧ g.port ≠ 19) (hf : (s.atIssue core x).trigFault core x 0 g = none)
    (hs : g.unit = 3 → g.port = 18 → (s.atIssue core x).twinReadsOther core g.ts.toNat = false)
    (hl : ((s.atIssue core x).ctx core x).loops.ml.active = false) (hpm : g.unit = 3 → 19 ≤ g.port → ((s.atIssue core x).core core).promises x = false) :
    s.passes core x g = true := by
  have hw := wantsOf_plain (s.atIssue core x) core x g ⟨h4, h5, h6, by omega⟩
  have htw := twinsDiffer_plain (s.atIssue core x) core x g ⟨h4, h5, h6, h11⟩ hs hl
  have ho : (((s.atIssue core x).core core).promises x && g.ordered) = false := by
    by_cases h : g.unit = 3 ∧ 19 ≤ g.port
    · rw [hpm h.1 h.2]; rfl
    · have : g.ordered = false := by
        simp only [Trig.ordered, Bool.or_eq_false_iff, beq_eq_false_iff_ne, Bool.and_eq_false_iff, decide_eq_false_iff_not]
        exact ⟨⟨⟨⟨h4, h5⟩, h6⟩, by omega⟩, Decidable.not_and_iff_or_not.1 h⟩
      rw [this, Bool.and_false]
  have hst : g.stores = false := by simp [Trig.stores, h4, h5]
  have hx : trigXinv g [] = 0 := by
    rw [trigXinv, if_neg (fun h => (h3 h.1).2 h.2.1)]
    simp
  have hl : g.lowRelease = false := by simp [Trig.lowRelease, h4, h5, h6]
  have hwt : (g.unit == 3 && g.port == 16) = false := by
    by_cases h : g.unit = 3
    · have := (h3 h).1
      simp [this]
    · simp [h]
  have hn : ((s.atIssue core x).ctx core x).logsNow g = false := by simp [Ctx.logsNow, hl]
  simp [State.passes, hf, hn, State.accessFault, State.trigFreeze, State.piecesOf, hw, State.locateAll, State.xinvOver, Ctx.actsLater, hx, hst, hwt,
    h6, htw, ho]

/-! ### The issue of a move that is no trigger, and of a word that its guard drops -/

/-- The moves that take place in a bundle of one word, when it is no trigger: the word's own unless its guard drops it. -/
def movesOf (s : State) (core x w : Nat) (own : Bool) : List Move :=
  (if own then [⟨0, w, (s.atIssue core x).readSrc core x 0 0 (mvSrc w)⟩] else []) ++ [1, 2, 3, 4, 5].map (emptyMove (s.atIssue core x) core x)

theorem takenMoves_movesOf (s : State) (core x w : Nat) :
    (s.atIssue core x).takenMoves core x 0 0 0 [w, 0, 0, 0, 0, 0] = movesOf s core x w (moveTakes ((s.atIssue core x).ctx core x) w) := by
  cases h : moveTakes ((s.atIssue core x).ctx core x) w
  · simp only [movesOf, takenMoves_none _ _ _ _ h]; rfl
  · simp only [movesOf, takenMoves_one _ _ _ _ h]; rfl

/-- What a move that is no trigger does to its context: a port write (R31 step 3), or a result of latency 1 (R103). -/
def Ctx.moveEffect (c : Ctx) (m : Move) : Ctx :=
  if m.toPort then c.setUnit m.unit ((c.unit m.unit).write m.unit m.port m.src.val) else c.plainMove m

theorem trigsOf_movesOf (s : State) (c : Ctx) (core x w : Nat) (own : Bool) (ht : own = true → mvIsTrig w = false) :
    trigsOf c (movesOf s core x w own) = [] := by
  have hf : (movesOf s core x w own).filter Move.isTrig = [] := by
    cases own
    · exact filter_trig_empty _ _ _ _
    · have : Move.isTrig ⟨0, w, (s.atIssue core x).readSrc core x 0 0 (mvSrc w)⟩ = false := ht rfl
      simp only [movesOf, if_true, List.cons_append, List.nil_append]
      rw [List.filter_cons_of_neg (by rw [this]; decide), filter_trig_empty]
  have hr : List.range 12 = [0, 1, 2, 3, 4, 5, 6, 7, 8, 9, 10, 11] := rfl
  simp [trigsOf, hf, hr]

/-- The issue of a word by a free context, when the word is no trigger or its guard drops it. -/
theorem issue_plain (s : State) (core x w : Nat) (hw : w < 2 ^ 24) (hs : staticFault (oneMove w) = none) (hf : s.free core x = true)
    (ht : moveTakes ((s.atIssue core x).ctx core x) w = true → mvIsTrig w = false)
    (hsm : moveTakes ((s.atIssue core x).ctx core x) w = true → ((s.atIssue core x).readSrc core x 0 0 (mvSrc w)).mark = none)
    (hbo : moveTakes ((s.atIssue core x).ctx core x) w = true → badOverride ⟨0, w, (s.atIssue core x).readSrc core x 0 0 (mvSrc w)⟩ = false)
    (hgm : (if mvGrd w = 0 then none else ((s.atIssue core x).ctx core x).bank.mark (0xA0 + mvGrd w)) = none)
    (h0 : ((s.atIssue core x).ctx core x).bank.mark 0 = none) :
    issueBundle (oneMove w) s = s.issued core x (fun c =>
      if moveTakes ((s.atIssue core x).ctx core x) w then c.moveEffect ⟨0, w, (s.atIssue core x).readSrc core x 0 0 (mvSrc w)⟩ else c) := by
  obtain ⟨f1, f2, f3, -, -, -, fs, f7, -, f9, f10, f11, f12, f14, f13⟩ := free_facts s core x hf
  generalize hG : moveTakes ((s.atIssue core x).ctx core x) w = own at ht hsm hbo
  generalize hM : (⟨0, w, (s.atIssue core x).readSrc core x 0 0 (mvSrc w)⟩ : Move) = mv at hbo
  have hms : (s.atIssue core x).takenMoves core x 0 0 0 [w, 0, 0, 0, 0, 0] = movesOf s core x w own := by
    rw [takenMoves_movesOf, hG]
  have hmv : movesOf s core x w own = (if own then [mv] else []) ++ [1, 2, 3, 4, 5].map (emptyMove (s.atIssue core x) core x) := by
    rw [movesOf, hM]
  have htr : own = true → mv.isTrig = false := fun h => by rw [← hM]; exact ht h
  have hmark : own = true → mv.src.mark = none := fun h => by rw [← hM]; exact hsm h
  let pw : Ctx → Ctx := fun c => if own ∧ mv.toPort then c.setUnit mv.unit ((c.unit mv.unit).write mv.unit mv.port mv.src.val) else c
  have hwp : ∀ c : Ctx, c.writePorts (movesOf s core x w own) = pw c := by
    intro c
    rw [hmv]
    cases own
    · exact writePorts_empty _ _ _ _ _
    · have e := htr rfl
      rw [if_pos rfl, Ctx.writePorts, List.cons_append, List.nil_append, List.foldl_cons, e]
      cases hp : mv.toPort
      · simp only [Bool.false_and, Bool.false_eq_true, if_false, pw, hp, and_false]
        exact writePorts_empty _ _ _ _ _
      · simp only [Bool.not_false, Bool.true_and, if_true, pw, hp, and_self]
        exact writePorts_empty _ _ _ _ _
  have hready : (s.settleLoops core x).readyFor core x (oneMove w) =
      { s := (s.atIssue core x).modCtx core x pw, ms := movesOf s core x w own, ts := [] } := by
    have h1 : hdrIPF 0 = 0 := by decide
    have ha : (s.settleLoops core x).modCore core (fun k => k.deliver x) = s.atIssue core x := rfl
    simp only [State.readyFor, oneMove_hdr, oneMove_pool, oneMove_moves w hw, h1, ha,
      show BitVec.toNat (0 : BitVec 32) = 0 from rfl, hms, hwp, trigsOf_movesOf s _ core x w own ht]
    rfl
  have hbank : (((s.atIssue core x).modCtx core x pw).ctx core x).bank = ((s.atIssue core x).ctx core x).bank := by
    rw [State.ctx_modCtx]
    simp only [pw]; split <;> rfl
  have hcons : ((s.atIssue core x).modCtx core x pw).consumed core x [w, 0, 0, 0, 0, 0] (movesOf s core x w own) = none := by
    refine consumed_none _ _ _ _ _ (by rw [hbank]; exact hgm) ?_
    rw [hmv]
    intro m hm
    rcases List.mem_append.mp hm with h | h
    · cases own
      · cases h
      · rw [if_pos rfl, List.mem_singleton] at h; rw [h]; exact hmark rfl
    · exact empty_marks _ _ _ _ h0 m h
  have hslots : ((s.atIssue core x).modCtx core x pw).slotFaults core x (movesOf s core x w own) 0 = none := by
    rw [hmv]
    cases own
    · exact slotFaults_empty _ _ _ _ _ _
    · rw [if_pos rfl, List.cons_append, List.nil_append, State.slotFaults, hbo rfl, htr rfl]
      simp only [Bool.false_eq_true, if_false, Bool.false_and]
      exact slotFaults_empty _ _ _ _ _ _
  have hp2 : ((s.settleLoops core x).ctx core x).part2 = false := by rw [settleLoops_ctx]; exact f10
  have hlost : ((s.settleLoops core x).ctx core x).dueLost = false := by rw [settleLoops_ctx]; exact f9
  have hew : hdrEW 0 = 0 := by decide
  have hb0 : bySlot [] = [] := rfl
  have hxo : ∀ t : State, t.xinvOver core x [] = false := fun _ => rfl
  have hlo : (Ready.mk ((s.atIssue core x).modCtx core x pw) (movesOf s core x w own) []).logOver core x = false := rfl
  have hv : (s.settleLoops core x).verdict core x (oneMove w) = .go := by
    simp only [State.verdict, hlo, hready, hslots, hp2, dispatchFault_oneMove, queueFault_oneMove, oneMove_moves w hw, hcons, hlost,
      State.firstFreeze, hb0, hxo, oneMove_hdr, hew, holds_zero, List.any_nil, Bool.false_and, Bool.and_false, List.findSome?_nil, Bool.false_eq_true, if_false]
  have hact : ∀ c : Ctx, List.foldl Ctx.plainMove (pw c) ((movesOf s core x w own).filter (fun m => !m.toPort)) =
      if own then c.moveEffect mv else c := by
    intro c
    rw [hmv]
    cases own
    · simp only [Bool.false_eq_true, if_false, List.nil_append]
      rw [filter_plain_empty, foldl_plainMove_empty]
      simp [pw]
    · cases hp : mv.toPort
      · rw [if_pos rfl, if_pos rfl, List.cons_append, List.nil_append,
          List.filter_cons_of_pos (p := fun m : Move => !m.toPort) (by rw [hp]; rfl), filter_plain_empty, List.foldl_cons,
          foldl_plainMove_empty]
        simp [Ctx.moveEffect, pw, hp]
      · rw [if_pos rfl, if_pos rfl, List.cons_append, List.nil_append,
          List.filter_cons_of_neg (p := fun m : Move => !m.toPort) (by rw [hp]; decide), filter_plain_empty, foldl_plainMove_empty]
        simp [Ctx.moveEffect, pw, hp]
  have hml : ((s.atIssue core x).ctx core x).loops.ml.active = false := by
    rw [(atIssue_ctx_fields s core x).2.2.2.2.1, settle_ml _ f11]; exact f11
  have hpl : ∀ c : Ctx, (pw c).loops = c.loops := by intro c; simp only [pw]; split <;> rfl
  have heff : ∀ c : Ctx, (if own then c.moveEffect mv else c).loops = c.loops := by
    intro c; split
    · simp only [Ctx.moveEffect, Ctx.plainMove]; split
      · rfl
      · split <;> rfl
    · rfl
  have hdis : ∀ t : State, t.dispatch core x (oneMove w) = t.dispatch core x {} := by intro t; rfl
  simp only [issueBundle, f1, f2, State.issueOn, State.issueNow, fs, f7, Bool.false_and, arriveAt_oneMove s core x w hf hs, hv,
    Bool.false_eq_true, if_false]
  have hagree : (s.settleLoops core x).mismatch core x (oneMove w) = false := by
    simp only [State.mismatch, hready, twinsDiffer_none]
  rw [commit_free (s.settleLoops core x) core x (oneMove w) f12 (by rw [settleLoops_upperOf]; exact f14) f13 hagree]
  have hsn : ((s.atIssue core x).modCtx core x pw).modCtx core x (fun c => c.snapshot.consumeD []) =
      (s.atIssue core x).modCtx core x pw := by
    rw [State.modCtx_modCtx]
    have : (pw ((s.atIssue core x).ctx core x)).loops.ml.active = false := by rw [hpl]; exact hml
    simp only [State.modCtx, snapshot_idle _ this, Ctx.consumeD, List.foldl_nil]
  simp only [State.effects, State.runTrigs, State.walkTrigs, hready, hsn, List.foldl_nil, hp2, Bool.false_eq_true, if_false, hdis, oneMove_hdr]
  have hcomp : ((s.atIssue core x).modCtx core x pw).modCtx core x
        (fun c => ((movesOf s core x w own).filter (fun m => !m.toPort)).foldl Ctx.plainMove c) =
      ((s.atIssue core x).modCtx core x (fun c => if own then c.moveEffect mv else c)).modCtx core x (fun c => c) := by
    rw [State.modCtx_modCtx, State.modCtx_modCtx]
    simp only [hact]
  rw [hcomp, finish_ctx _ _ _ _ _ (by rw [heff]; exact hml)]
  rw [ends_settled]
  rfl

/-! ### The dispatch of slots 6 and 7 -/

/-- A free context's bundle whose moves and pool are empty and whose header is 0: slots 6 and 7 are dispatched in the state in which
the bundle reads, and the bundle ends. -/
theorem issue_dispatch (s : State) (core x : Nat) (b : Bundle) (hm : b.moves = [0, 0, 0, 0, 0, 0]) (hh : b.hdr = 0) (hp : b.pool = 0)
    (hs : staticFault b = none) (hf : s.free core x = true)
    (hem : mtOp b.mat.toNat ≠ 0 → tooEarly (s.ctx core x).recM (s.ctx core x).count = false)
    (hee : egOp b.eng.toNat ≠ 0 → tooEarly (s.ctx core x).recE (s.ctx core x).count = false)
    (hpr : egOp b.eng.toNat = 18 → (s.ctx core x).priv = true)
    (hd : (s.atIssue core x).dispatchFault core x b (s.ctx core x).rept = none)
    (hq : (s.atIssue core x).queueFault core b = none)
    (h0 : ((s.atIssue core x).ctx core x).bank.mark 0 = none)
    (hml : ∀ r : State, ((r.dispatch core x b).ctx core x).loops = (r.ctx core x).loops) :
    issueBundle b s = ((s.atIssue core x).dispatch core x b).ends core x (s.ctx core x) := by
  obtain ⟨f1, f2, f3, f4, f5, f6, fs, f7, f8, f9, f10, f11, f12, f14, f13⟩ := free_facts s core x hf
  obtain ⟨c1, c2, c3, c4, c5, c6, -, c8, -, -, -, -, -, -⟩ := atIssue_ctx_fields s core x
  have hh' : b.hdr.toNat = 0 := by rw [hh]; rfl
  have hp' : b.pool.toNat = 0 := by rw [hp]; rfl
  have hact : ((s.atIssue core x).ctx core x).loops.ml.active = false := by rw [c5, settle_ml _ f11]; exact f11
  have hms : (s.atIssue core x).takenMoves core x 0 0 0 [0, 0, 0, 0, 0, 0] = [0, 1, 2, 3, 4, 5].map (emptyMove (s.atIssue core x) core x) := by
    simp [State.takenMoves, moveTakes_zero, emptyMove]; rfl
  have htr : ∀ c : Ctx, trigsOf c ([0, 1, 2, 3, 4, 5].map (emptyMove (s.atIssue core x) core x)) = [] := by
    intro c
    have hr : List.range 12 = [0, 1, 2, 3, 4, 5, 6, 7, 8, 9, 10, 11] := rfl
    rw [trigsOf, filter_trig_empty]; simp [hr]
  have hready : (s.settleLoops core x).readyFor core x b =
      { s := s.atIssue core x, ms := [0, 1, 2, 3, 4, 5].map (emptyMove (s.atIssue core x) core x), ts := [] } := by
    have h1 : hdrIPF 0 = 0 := by decide
    have ha : (s.settleLoops core x).modCore core (fun k => k.deliver x) = s.atIssue core x := rfl
    simp only [State.readyFor, hh', hp', hm, h1, ha, hms, writePorts_empty, atIssue_setCtx_self, htr]
  have hp2 : ((s.settleLoops core x).ctx core x).part2 = false := by rw [settleLoops_ctx]; exact f10
  have hlost : ((s.settleLoops core x).ctx core x).dueLost = false := by rw [settleLoops_ctx]; exact f9
  have hlate : ((s.settleLoops core x).ctx core x).lateData = false := by rw [settleLoops_ctx]; exact f8
  have hcons : (s.atIssue core x).consumed core x [0, 0, 0, 0, 0, 0] ([0, 1, 2, 3, 4, 5].map (emptyMove (s.atIssue core x) core x)) = none :=
    consumed_none _ _ _ _ _ (if_pos (by decide)) (empty_marks _ _ _ _ h0)
  have hlo : (Ready.mk (s.atIssue core x) ([0, 1, 2, 3, 4, 5].map (emptyMove (s.atIssue core x) core x)) []).logOver core x = false := rfl
  have hew : hdrEW 0 = 0 := by decide
  have hb0 : bySlot [] = [] := rfl
  have hxo : ∀ t : State, t.xinvOver core x [] = false := fun _ => rfl
  have hrp : reptOf ((s.atIssue core x).ctx core x) [] = (s.ctx core x).rept := by simp [reptOf, c8]
  have hv : (s.settleLoops core x).verdict core x b = .go := by
    simp only [State.verdict, hready, hlo, slotFaults_empty, hp2, hrp, hd, hq, hm, hcons, hlost, State.firstFreeze, hb0, hxo, hh', hew, holds_zero,
      List.any_nil, Bool.and_false, Bool.false_and, List.findSome?_nil, Bool.false_eq_true, if_false]
  have he : ((s.settleLoops core x).modCore core (fun k => k.deliver x)).earlyFault core x b = none := by
    have ha : (s.settleLoops core x).modCore core (fun k => k.deliver x) = s.atIssue core x := rfl
    have o1 : hdrOPC 0 = false := by decide
    rw [ha]
    simp only [State.earlyFault, hs, hh', o1, c1, c2, c3, c6, Modulo.leFault, hact, Bool.false_eq_true, false_and, Bool.false_and, or_self,
      if_false]
    rw [if_neg, if_neg, if_neg]
    · rintro ⟨h, h'⟩; rw [hpr h] at h'; cases h'
    · rintro ⟨h, h'⟩; rw [hee h] at h'; cases h'
    · rintro ⟨h, h'⟩; rw [hem h] at h'; cases h'
  have hsl : (s.core core).slipFull = false := by simp only [Core.slipFull, Bool.or_eq_false_iff, decide_eq_false_iff_not]; omega
  have ham : hdrAM 0 = false := by decide
  have hae : hdrAE 0 = false := by decide
  have harr : s.arriveAt core x b = (s.settleLoops core x, .go) := by
    simp [State.arriveAt, f3, f4, hlate, hp2, he, hsl, hh', ham, hae, hv]
  have hid : (s.atIssue core x).modCtx core x (fun c => c.snapshot.consumeD []) = s.atIssue core x := by
    have : (s.atIssue core x).modCtx core x (fun c => c.snapshot.consumeD []) =
        (s.atIssue core x).setCtx core x ((s.atIssue core x).ctx core x) := by
      simp only [State.modCtx, snapshot_idle _ hact, Ctx.consumeD, List.foldl_nil]
    rw [this, atIssue_setCtx_self]
  have hpl : (s.atIssue core x).modCtx core x
      (fun c => (([0, 1, 2, 3, 4, 5].map (emptyMove (s.atIssue core x) core x)).filter (fun m => !m.toPort)).foldl Ctx.plainMove c) =
      s.atIssue core x := by
    have : (s.atIssue core x).modCtx core x
        (fun c => (([0, 1, 2, 3, 4, 5].map (emptyMove (s.atIssue core x) core x)).filter (fun m => !m.toPort)).foldl Ctx.plainMove c) =
        (s.atIssue core x).setCtx core x ((s.atIssue core x).ctx core x) := by
      simp only [State.modCtx, filter_plain_empty, foldl_plainMove_empty]
    rw [this, atIssue_setCtx_self]
  simp only [issueBundle, f1, f2, State.issueOn, State.issueNow, fs, f7, Bool.false_and, harr, Bool.false_eq_true, if_false]
  have hagree : (s.settleLoops core x).mismatch core x b = false := by
    simp only [State.mismatch, hready, twinsDiffer_none]
  rw [commit_free (s.settleLoops core x) core x b f12 (by rw [settleLoops_upperOf]; exact f14) f13 hagree]
  simp only [State.effects, State.runTrigs, State.walkTrigs, hready, hid, List.foldl_nil, hpl, hp2, Bool.false_eq_true, if_false, hh']
  rw [finish_plain _ _ _ _ (by rw [hml]; exact hact), ends_settled]

end Sys2Proof.Machine
end

