-- ==== Sys2Proof/Laws/Memory.lean ====
section
/-! SUPPORT. Every operation over the stores keeps their canonical form, and a byte read after a write. -/

namespace Sys2Proof.Machine

set_option Elab.async false

/-! ### Lists of bytes -/

theorem Memory.wf_write (m : List Host.Cell) (a : Nat) (b : Byte) (h : Memory.wf m = true) : Memory.wf (Memory.write m a b) = true :=
  Sp.wf_set _ _ _ _ h

theorem Memory.wf_writes : ∀ (cs : Cells) (m : List Host.Cell), Memory.wf m = true → Memory.wf (Memory.writes m cs) = true
  | [], _, h => h
  | c :: t, m, h => Memory.wf_writes t (Memory.write m c.1 c.2) (Memory.wf_write m c.1 c.2 h)

theorem Memory.read_write_same (m : List Host.Cell) (a : Nat) (b : Byte) (h : Memory.wf m = true) :
    Memory.read (Memory.write m a b) a = b := Sp.get_set_same _ _ _ _ h

theorem Memory.read_write_ne (m : List Host.Cell) (a j : Nat) (b : Byte) (h : j ≠ a) :
    Memory.read (Memory.write m a b) j = Memory.read m j := Sp.get_set_ne _ _ _ _ _ h

theorem Memory.read_writes_ne : ∀ (cs : Cells) (m : List Host.Cell) (j : Nat), (∀ c ∈ cs, j ≠ c.1) →
    Memory.read (Memory.writes m cs) j = Memory.read m j
  | [], _, _, _ => rfl
  | c :: t, m, j, h =>
    (Memory.read_writes_ne t (Memory.write m c.1 c.2) j (fun d hd => h d (List.mem_cons_of_mem c hd))).trans
      (Memory.read_write_ne m c.1 j c.2 (h c List.mem_cons_self))

/-! ### The three stores of a state -/

/-- What the canonical form of the stores rests on. -/
theorem State.memOk_congr (s t : State) (hm : t.mem = s.mem) (hc : t.cores = s.cores) (hl : t.launches = s.launches)
    (h2 : t.l2 = s.l2) : t.memOk = s.memOk := by simp only [State.memOk, hm, hc, hl, h2]

theorem State.memOk_mem (s : State) (h : s.memOk = true) : Memory.wf s.mem = true := by
  simp only [State.memOk, Bool.and_eq_true] at h; exact h.1.1.1

theorem State.memOk_l2 (s : State) (h : s.memOk = true) : Sp.sortedFrom 0 s.l2 = true := by
  simp only [State.memOk, Bool.and_eq_true] at h; exact h.2

/-- Home memory changes, and stays canonical. -/
theorem State.memOk_setMem (s t : State) (h : s.memOk = true) (hm : Memory.wf t.mem = true) (hc : t.cores = s.cores)
    (hl : t.launches = s.launches) (h2 : Sp.sortedFrom 0 t.l2 = true) : t.memOk = true := by
  simp only [State.memOk, Bool.and_eq_true] at h ⊢
  exact ⟨⟨⟨hm, hc ▸ h.1.1.2⟩, hl ▸ h.1.2⟩, h2⟩

/-- The lines of the L2 change, and stay in order. -/
theorem State.memOk_setL2 (s t : State) (h : s.memOk = true) (hm : t.mem = s.mem) (hc : t.cores = s.cores)
    (hl : t.launches = s.launches) (h2 : Sp.sortedFrom 0 t.l2 = true) : t.memOk = true :=
  State.memOk_setMem s t h (hm ▸ s.memOk_mem h) hc hl h2

/-- The scratchpads of each core, listed or not, are canonical. -/
theorem State.coreOk (s : State) (k : Nat) (h : s.memOk = true) : (s.core k).scratchOk = true := by
  simp only [State.memOk, Bool.and_eq_true] at h
  have hall := h.1.1.2
  rw [State.core, Sp.get]
  have key : ∀ (m : Sp Core), m.all (fun c => c.2.scratchOk) = true → ∀ v, m.find? k = some v → v.scratchOk = true := by
    intro m
    induction m with
    | nil => intro _ v hv; simp [Sp.find?] at hv
    | cons a t ih =>
      intro ha v hv
      rw [List.all_cons, Bool.and_eq_true] at ha
      rw [Sp.find?] at hv
      split at hv
      · cases hv; exact ha.1
      · exact ih ha.2 v hv
  cases hf : s.cores.find? k with
  | none => rfl
  | some v => exact key _ hall v hf

/-- The scratchpad of each core is canonical. -/
theorem State.scratchOk (s : State) (k : Nat) (h : s.memOk = true) : Memory.wf (s.core k).scratch = true := by
  have hk := s.coreOk k h
  rw [Core.scratchOk, Bool.and_eq_true] at hk
  exact hk.1

theorem State.memOk_setCore (s : State) (k : Nat) (c : Core) (h : s.memOk = true) (hc : c.scratchOk = true) :
    (s.setCore k c).memOk = true := by
  simp only [State.memOk, Bool.and_eq_true] at h ⊢
  exact ⟨⟨⟨h.1.1.1, Sp.all_put _ _ _ _ h.1.1.2 hc⟩, h.1.2⟩, h.2⟩

theorem Core.scratchOk_congr (k c : Core) (hs : c.scratch = k.scratch) (ht : c.twin = k.twin) : c.scratchOk = k.scratchOk := by
  rw [Core.scratchOk, Core.scratchOk, hs, ht]

/-- A change of a core that keeps its scratchpads canonical. -/
theorem State.memOk_modCore (s : State) (k : Nat) (f : Core → Core) (h : s.memOk = true)
    (hf : (s.core k).scratchOk = true → (f (s.core k)).scratchOk = true) : (s.modCore k f).memOk = true :=
  State.memOk_setCore _ _ _ h (hf (s.coreOk k h))

/-- A change of a core that leaves its scratchpads alone. -/
theorem State.memOk_keepCore (s : State) (k : Nat) (f : Core → Core) (h : s.memOk = true) (hs : ∀ c, (f c).scratch = c.scratch)
    (ht : ∀ c, (f c).twin = c.twin) : (s.modCore k f).memOk = true :=
  State.memOk_modCore _ _ _ h (fun hk => (Core.scratchOk_congr _ _ (hs _) (ht _)).trans hk)

theorem State.memOk_setCtx (s : State) (k x : Nat) (c : Ctx) (h : s.memOk = true) : (s.setCtx k x c).memOk = true :=
  State.memOk_setCore _ _ _ h (s.coreOk k h)

theorem State.memOk_modCtx (s : State) (k x : Nat) (f : Ctx → Ctx) (h : s.memOk = true) : (s.modCtx k x f).memOk = true :=
  State.memOk_setCtx _ _ _ _ h

@[simp] theorem State.memOk_setPair (s : State) (k : Nat) (p : Pair) : (s.setPair k p).memOk = s.memOk := rfl
@[simp] theorem State.memOk_modPair (s : State) (k : Nat) (f : Pair → Pair) : (s.modPair k f).memOk = s.memOk := rfl
@[simp] theorem State.memOk_setClu (s : State) (k : Nat) (c : Cluster) : (s.setClu k c).memOk = s.memOk := rfl
@[simp] theorem State.memOk_modClu (s : State) (k : Nat) (f : Cluster → Cluster) : (s.modClu k f).memOk = s.memOk := rfl
@[simp] theorem State.memOk_setDie (s : State) (k : Nat) (d : Die) : (s.setDie k d).memOk = s.memOk := rfl
@[simp] theorem State.memOk_modDie (s : State) (k : Nat) (f : Die → Die) : (s.modDie k f).memOk = s.memOk := rfl
@[simp] theorem State.memOk_setXfer (s : State) (k : Nat) (x : Xfer) : (s.setXfer k x).memOk = s.memOk := rfl

theorem State.memOk_modL2 (s : State) (l : Nat) (f : L2Line → L2Line) (h : s.memOk = true) : (s.modL2 l f).memOk = true :=
  State.memOk_setL2 s _ h rfl rfl rfl (Sp.sorted_put _ _ _ _ (s.memOk_l2 h) (Nat.zero_le _))

theorem State.memOk_setLaunch (s : State) (k : Nat) (l : Launch) (h : s.memOk = true)
    (hl : l.saved.all (fun c => c.2.scratchOk) = true) : (s.setLaunch k l).memOk = true := by
  simp only [State.memOk, Bool.and_eq_true] at h ⊢
  exact ⟨⟨h.1.1, Sp.all_put _ _ _ _ h.1.2 hl⟩, h.2⟩

/-! ### Operations -/

/-- A fold keeps what each of its steps keeps. -/
theorem State.memOk_foldl {α : Type} (f : State → α → State) (l : List α) (s : State) (hf : ∀ a x, a.memOk = true → (f a x).memOk = true)
    (h : s.memOk = true) : (l.foldl f s).memOk = true := by
  induction l generalizing s with
  | nil => exact h
  | cons a t ih => exact ih _ (hf _ _ h)

theorem State.memOk_memWrite (s : State) (cs : Cells) (h : s.memOk = true) : (s.memWrite cs).memOk = true :=
  State.memOk_setMem s _ h (Memory.wf_writes _ _ (s.memOk_mem h)) rfl rfl (s.memOk_l2 h)

theorem State.memOk_l2Clean (s : State) (line : Nat) (l : L2Line) (h : s.memOk = true) : (s.l2Clean line l).memOk = true :=
  State.memOk_setMem s _ h (Memory.wf_writes _ _ (s.memOk_mem h)) rfl rfl (s.memOk_l2 h)

theorem State.memOk_l2CleanLine (s : State) (line : Nat) (h : s.memOk = true) : (s.l2CleanLine line).memOk = true := by
  unfold State.l2CleanLine
  split
  · exact h
  · rename_i l _
    exact State.memOk_setL2 _ _ (s.memOk_l2Clean line l h) rfl rfl rfl (Sp.sorted_put _ _ _ _ (s.memOk_l2 h) (Nat.zero_le _))

theorem State.memOk_l2Evict (s : State) (line : Nat) (h : s.memOk = true) : (s.l2Evict line).memOk = true := by
  unfold State.l2Evict
  split
  · exact h
  · rename_i l _
    exact State.memOk_setL2 _ _ (s.memOk_l2Clean line l h) rfl rfl rfl (Sp.sorted_erase _ _ _ (s.memOk_l2 h))

theorem State.memOk_l2Room (s : State) (line : Nat) (h : s.memOk = true) : (s.l2Room line).memOk = true := by
  unfold State.l2Room
  dsimp only
  split
  · split
    · exact s.memOk_l2Evict _ h
    · exact h
  · exact h

theorem State.memOk_l2Fill (s : State) (l : Nat) (h : s.memOk = true) : (s.l2Fill l).memOk = true := by
  unfold State.l2Fill
  split
  · exact h
  · have hr := s.memOk_l2Room l h
    exact State.memOk_setL2 _ _ hr rfl rfl rfl (Sp.sorted_put _ _ _ _ (State.memOk_l2 _ hr) (Nat.zero_le _))

theorem State.memOk_homeWrite1 (s : State) (c : Nat × Byte) (h : s.memOk = true) : (s.homeWrite1 c).memOk = true := by
  unfold State.homeWrite1
  dsimp only
  split
  · exact h
  · exact State.memOk_modL2 _ (paNorm c.1 / 128) (fun l => l.write (paNorm c.1 % 128) c.2) (State.memOk_l2Fill s (paNorm c.1 / 128) h)

theorem State.memOk_homeWrite (s : State) (cs : Cells) (h : s.memOk = true) : (s.homeWrite cs).memOk = true :=
  State.memOk_foldl _ _ _ State.memOk_homeWrite1 h

theorem State.memOk_homeMark (s : State) (on : Bool) (g : Nat) (h : s.memOk = true) : (s.homeMark on g).memOk = true := by
  unfold State.homeMark
  dsimp only
  split
  · exact State.memOk_modL2 _ _ _ h
  · exact h

theorem State.memOk_homeStore (s : State) (cs : Cells) (h : s.memOk = true) : (s.homeStore cs).memOk = true :=
  State.memOk_foldl _ _ _ (fun a g ha => a.memOk_homeMark false g ha) (State.memOk_homeWrite _ _ h)

/-- What passes some lines of the L2 through an operation that keeps the form keeps it. -/
theorem State.memOk_l2Lines (f : State → Nat → State) (hf : ∀ a l, a.memOk = true → (f a l).memOk = true) (s : State)
    (h : s.memOk = true) : ((s.l2.map (·.1)).foldl (fun a l => if paOff (l * 128) then f a l else a) s).memOk = true :=
  State.memOk_foldl _ _ _ (fun a l ha => by
    by_cases hl : paOff (l * 128) = true
    · rw [if_pos hl]; exact hf a l ha
    · rw [if_neg hl]; exact ha) h

theorem State.memOk_l2WriteBack (s : State) (h : s.memOk = true) : s.l2WriteBack.memOk = true :=
  State.memOk_l2Lines _ State.memOk_l2CleanLine s h

theorem State.memOk_l2Invalidate (s : State) (h : s.memOk = true) : s.l2Invalidate.memOk = true :=
  State.memOk_l2Lines _ State.memOk_l2Evict s h

theorem State.memOk_l2FlushAll (s : State) (h : s.memOk = true) : s.l2FlushAll.memOk = true :=
  State.memOk_foldl _ _ _ State.memOk_l2Evict h

theorem State.memOk_giveBack (s : State) (line : Nat) (l : L1Line) (sel : BitVec 128) (h : s.memOk = true) :
    (s.giveBack line l sel).memOk = true := by
  unfold State.giveBack
  dsimp only
  split
  · exact h
  · exact State.memOk_modL2 _ line (fun h => { h with marks := marksBack h.marks (l.dirty &&& sel) l.marks })
      (State.memOk_homeWrite s _ h)

theorem State.memOk_writeBackLine (s : State) (core line : Nat) (h : s.memOk = true) : (s.writeBackLine core line).memOk = true := by
  unfold State.writeBackLine
  split
  · exact h
  · split
    · exact h
    · exact State.memOk_keepCore _ _ _ (State.memOk_giveBack _ _ _ _ h) (fun _ => rfl) (fun _ => rfl)

theorem State.memOk_invalidateLine (s : State) (core line : Nat) (h : s.memOk = true) : (s.invalidateLine core line).memOk = true := by
  unfold State.invalidateLine
  dsimp only
  split
  · exact State.memOk_writeBackLine _ _ _ h
  · exact State.memOk_keepCore _ _ _ (State.memOk_writeBackLine _ _ _ h) (fun _ => rfl) (fun _ => rfl)

theorem State.memOk_drainTo (s : State) (core g : Nat) (h : s.memOk = true) : (s.drainTo core g).memOk = true :=
  State.memOk_keepCore _ _ _ (State.memOk_foldl _ _ _ (fun a l ha => a.memOk_writeBackLine core l ha) h) (fun _ => rfl) (fun _ => rfl)

/-- Wake comparators count writes, and change no scratchpad. -/
theorem Core.feedComps_scratch (c : Core) (cs : Cells) : (c.feedComps cs).scratch = c.scratch ∧ (c.feedComps cs).twin = c.twin := by
  unfold Core.feedComps
  generalize c.comps = l
  induction l generalizing c with
  | nil => exact ⟨rfl, rfl⟩
  | cons a t ih =>
    rw [List.foldl_cons, (ih _).1, (ih _).2]
    dsimp only
    split <;> exact ⟨rfl, rfl⟩

/-- A core that is no lower twin of a tidelocked group acts alone. -/
theorem State.bothTwins_alone (s : State) (core : Nat) (f : State → State) (h : (s.core core).twin = none) : s.bothTwins core f = f s := by
  simp only [State.bothTwins, h]
theorem Core.onTwin_alone (k : Core) (f : Core → Core) (h : k.twin = none) : k.onTwin f = { f k with twin := none } := by
  simp only [Core.onTwin, h, Option.map_none]

/-- A change of both twins' stores that keeps a scratchpad canonical keeps both (R45). -/
theorem Core.scratchOk_onTwin (k : Core) (f : Core → Core) (hf : ∀ c : Core, Memory.wf c.scratch = true → Memory.wf (f c).scratch = true)
    (h : k.scratchOk = true) : (k.onTwin f).scratchOk = true := by
  rw [Core.scratchOk, Bool.and_eq_true] at h ⊢
  refine ⟨hf k h.1, ?_⟩
  show (k.twin.map (fun t => (f (k.asUpper t)).stores)).all (fun t => Memory.wf t.scratch) = true
  cases ht : k.twin with
  | none => rfl
  | some t => rw [ht] at h; exact hf (k.asUpper t) h.2

theorem State.memOk_scratchWrite (s : State) (core : Nat) (cs : Cells) (h : s.memOk = true) : (s.scratchWrite core cs).memOk = true := by
  unfold State.scratchWrite
  split
  · exact h
  · refine State.memOk_modCore _ _ _ h (fun hk => ?_)
    rw [Core.scratchOk_congr _ _ (Core.feedComps_scratch _ _).1 (Core.feedComps_scratch _ _).2]
    exact Core.scratchOk_onTwin _ _ (fun c hc => Memory.wf_writes _ _ hc) hk

theorem State.memOk_setSaRow (s : State) (core row : Nat) (r : SaRow) (h : s.memOk = true) : (s.setSaRow core row r).memOk = true :=
  State.memOk_keepCore _ _ _ h (fun _ => rfl) (fun _ => rfl)

theorem State.memOk_modSaRow (s : State) (core row : Nat) (f : SaRow → SaRow) (h : s.memOk = true) :
    (s.modSaRow core row f).memOk = true :=
  State.memOk_modCore _ _ _ h (Core.scratchOk_onTwin _ _ (fun _ hc => hc))

theorem State.memOk_arriveAll (s : State) (core : Nat) (h : s.memOk = true) : (s.arriveAll core).memOk = true := by
  have hs : (s.flushS2 core).memOk = true :=
    State.memOk_foldl _ _ _ (fun a e ha => State.memOk_scratchWrite a e.2.core e.2.cells ha) h
  exact State.memOk_foldl _ _ _ (fun a x ha => State.memOk_modSaRow a x.core x.row _ ha) hs

theorem State.memOk_drain (s : State) (core g : Nat) (h : s.memOk = true) : (s.drain core g).memOk = true :=
  State.memOk_drainTo _ _ _ (State.memOk_arriveAll _ _ h)

theorem State.memOk_logRoom (s : State) (core : Nat) (h : s.memOk = true) : (s.logRoom core).memOk = true := by
  unfold State.logRoom
  dsimp only
  split
  · split
    · exact State.memOk_keepCore _ _ _ (State.memOk_drain _ _ _ h) (fun _ => rfl) (fun _ => rfl)
    · exact h
  · exact h

theorem State.memOk_takeGen (s : State) (core ctx scope : Nat) (line : Option Nat) (h : s.memOk = true) :
    (s.takeGen core ctx scope line).memOk = true := by
  unfold State.takeGen
  dsimp only
  split
  · have hr := s.memOk_logRoom core h
    refine State.memOk_setCore _ _ _ hr ((Core.scratchOk_congr ((s.logRoom core).core core) _ ?_ ?_).trans
      ((s.logRoom core).coreOk core hr)) <;> split <;> rfl
  · refine State.memOk_keepCore _ _ _ ?_ (fun _ => rfl) (fun _ => rfl)
    split
    · exact State.memOk_l2WriteBack _ (State.memOk_drain _ _ _ h)
    · exact State.memOk_drain _ _ _ h

theorem State.memOk_acquire (s : State) (core scope : Nat) (h : s.memOk = true) : (s.acquire core scope).memOk = true := by
  unfold State.acquire
  split
  · exact h
  · dsimp only
    split
    · exact State.memOk_l2Invalidate _ (State.memOk_keepCore _ _ _ h (fun _ => rfl) (fun _ => rfl))
    · exact State.memOk_keepCore _ _ _ h (fun _ => rfl) (fun _ => rfl)

theorem State.memOk_flushL1 (s : State) (core : Nat) (h : s.memOk = true) : (s.flushL1 core).memOk = true :=
  State.memOk_keepCore _ _ _ (State.memOk_drainTo _ _ _ h) (fun _ => rfl) (fun _ => rfl)

theorem State.memOk_l1Yield (s : State) (core line o : Nat) (h : s.memOk = true) : (s.l1Yield core line o).memOk = true := by
  refine State.memOk_foldl _ _ _ (fun a k ha => ?_) h
  split
  · exact ha
  · split
    · exact ha
    · split
      · exact State.memOk_keepCore _ _ _ (State.memOk_giveBack _ _ _ _ ha) (fun _ => rfl) (fun _ => rfl)
      · exact ha

theorem State.memOk_l1Room (s : State) (core line : Nat) (h : s.memOk = true) : (s.l1Room core line).memOk = true := by
  unfold State.l1Room
  dsimp only
  split
  · split
    · exact State.memOk_invalidateLine _ _ _ h
    · exact h
  · exact h

theorem State.memOk_l1Fill (s : State) (core line hint : Nat) (h : s.memOk = true) : (s.l1Fill core line hint).memOk = true := by
  unfold State.l1Fill
  dsimp only
  split
  · exact h
  · have hf := s.memOk_l2Fill line h
    split
    · split
      · split
        · exact hf
        · exact State.memOk_keepCore _ _ _ hf (fun _ => rfl) (fun _ => rfl)
      · exact State.memOk_keepCore _ _ _ hf (fun _ => rfl) (fun _ => rfl)
    · exact State.memOk_keepCore _ _ _ (State.memOk_l1Room _ _ _ hf) (fun _ => rfl) (fun _ => rfl)

theorem State.memOk_l1Store1 (hint : Nat) (through : Bool) (core : Nat) (s : State) (c : Nat × Byte) (h : s.memOk = true) :
    (State.l1Store1 hint through core s c).memOk = true := by
  unfold State.l1Store1
  dsimp only
  have hy := s.memOk_l1Yield core (c.1 / 128) (c.1 % 128) h
  split
  · split
    · exact State.memOk_homeWrite _ _ hy
    · exact State.memOk_keepCore _ _ _ (State.memOk_homeWrite _ _ hy) (fun _ => rfl) (fun _ => rfl)
  · split
    · exact State.memOk_setCore _ _ _ hy (State.coreOk _ core hy)
    · have hr := State.memOk_l1Room _ core (c.1 / 128) hy
      exact State.memOk_setCore _ _ _ hr (State.coreOk _ core hr)

theorem State.memOk_l1Mark (core : Nat) (through on : Bool) (s : State) (g : Nat) (h : s.memOk = true) :
    (State.l1Mark core through on s g).memOk = true := by
  unfold State.l1Mark
  split
  · dsimp only
    split
    · exact State.memOk_homeMark _ _ _ (State.memOk_keepCore _ _ _ h (fun _ => rfl) (fun _ => rfl))
    · exact State.memOk_keepCore _ _ _ h (fun _ => rfl) (fun _ => rfl)
  · exact State.memOk_homeMark _ _ _ h

theorem State.memOk_l1Store (s : State) (core hint : Nat) (through : Bool) (cs : Cells) (h : s.memOk = true) :
    (s.l1Store core hint through cs).memOk = true :=
  State.memOk_foldl _ _ _ (State.memOk_l1Mark core through false) (State.memOk_foldl _ _ _ (State.memOk_l1Store1 hint through core) h)

theorem State.memOk_uncStore (s : State) (cs : Cells) (h : s.memOk = true) : (s.uncStore cs).memOk = true := by
  refine State.memOk_foldl _ _ _ (fun a g ha => ?_) (State.memOk_foldl _ _ _ (fun a c ha => ?_) (State.memOk_memWrite _ _ h))
  · exact State.memOk_homeMark a false g ha
  · unfold State.l2Replace
    dsimp only
    split
    · exact State.memOk_modL2 _ _ _ ha
    · exact ha

end Sys2Proof.Machine
end

