-- ==== Sys2Proof/Laws/PerInstr.lean ====
section
/-! SUPPORT. The family Encoding, constructor by constructor: the bundle of a well-formed instruction stands for that instruction
(an empty slot word, whose bundle is all zero, apart). -/

namespace Sys2Proof.Laws.Encoding

set_option Elab.async false

/-- What the family says of an instruction: its bundle, if it has one and holds anything, stands for it. -/
def Statement (i : Instr) : Prop := i.wf = true → ∀ b, bundleOf i = some b → b ≠ {} → instrOfBundle b = i

/-- An instruction without an encoding. -/
theorem no_bundle (i : Instr) (h : bundleOf i = none) : Statement i := by
  intro _ b hb; rw [h] at hb; cases hb

/-- A trigger. -/
theorem trigger (u p : Nat) (m : MoveHead) (i : Instr) (hu : u < 12) (h4 : 4 ≤ p) (hp : p ≤ lastPort u) (hw : i.wf = m.ok)
    (hb : bundleOf i = some (oneMove (encodeTrig u p m))) (ht : trigInstr u p m = some i) : Statement i := by
  intro h b hb' _
  rw [hb] at hb'; cases hb'
  exact instrOfBundle_trig u p m i hu h4 hp (hw ▸ h) ht

/-- A trigger of one of two units. -/
theorem trigger2 (k p : Nat) (m : MoveHead) (u : BitVec 1) (f : BitVec 1 → Instr) (hk : k < 11) (h4 : 4 ≤ p)
    (hp : p ≤ lastPort k ∧ p ≤ lastPort (k + 1)) (hw : ∀ v, (f v).wf = m.ok)
    (hb : ∀ v, bundleOf (f v) = some (oneMove (encodeTrig (k + v.toNat) p m)))
    (ht : trigInstr k p m = some (f 0) ∧ trigInstr (k + 1) p m = some (f 1)) : Statement (f u) := by
  have hu : u = 0 ∨ u = 1 := by
    have := u.isLt
    rcases (show u.toNat = 0 ∨ u.toNat = 1 by omega) with h | h
    · exact .inl (BitVec.eq_of_toNat_eq h)
    · exact .inr (BitVec.eq_of_toNat_eq h)
  rcases hu with rfl | rfl
  · exact trigger k p m _ (by omega) h4 hp.1 (hw 0) (hb 0) ht.1
  · exact trigger (k + 1) p m _ (by omega) h4 hp.2 (hw 1) (hb 1) ht.2

/-- A move to port 0 to 3 of a unit. -/
theorem portMove (p : Nat) (m : PlainHead) (u : BitVec 4) (i : Instr) (hp : p < 4) (hw : i.wf = portMoveOk m u)
    (hb : bundleOf i = some (oneMove (encodePlain m (2 ^ 9 + u.toNat * 2 ^ 5 + p))))
    (hd : ∀ w, badUnit w = false → badMove 0 w = false → mvIsPort w = true → mvPort w = p → mvUnit w = u.toNat → plainOf w = m →
      decodeMove 0 w = .ok i) : Statement i := by
  intro h b hb' _
  rw [hb] at hb'; cases hb'
  rw [hw, portMoveOk, Bool.and_eq_true, decide_eq_true_eq] at h
  obtain ⟨hs, hu⟩ := h
  have hsrc : srcIllegal 0 m.src.toNat = false := by simpa [PlainHead.ok, srcOk] using hs
  have hlt : 2 ^ 9 + u.toNat * 2 ^ 5 + p < 2 ^ 10 := by omega
  have hport := encodePlain_isPort m _ hlt
  rw [decide_eq_true (by omega)] at hport
  have hl : 3 < lastPort u.toNat := by
    have : ∀ k, k < 12 → 3 < lastPort k := by decide
    exact this _ hu
  refine instrOfBundle_oneMove _ i ?_ ?_ (hd _ ?_ ?_ hport ?_ ?_ ?_)
  · have := encodePlain_lt m _ hlt; omega
  · simp only [encodePlain]; omega
  · rw [badUnit, hport, encodePlain_unit m _ hlt, Bool.true_and, decide_eq_false_iff_not]; omega
  · rw [badMove, encodePlain_src m _ hlt, hsrc, encodePlain_dst m _ hlt, dstIllegal_port _ p hu (by omega), encodePlain_w m _ hlt]
    simp
  · rw [encodePlain_port m _ hlt]; omega
  · rw [encodePlain_unit m _ hlt]; omega
  · exact plainOf_encodePlain m _ hlt

theorem bit1_cases (k : BitVec 1) : k = 0 ∨ k = 1 := by revert k; decide

theorem mode_cases (m : BitVec 2) (h : m ≠ 0) : m = 1 ∨ m = 2 ∨ m = 3 := by revert m; decide

/-- A matrix-slot word. -/
theorem matrix (w : Nat) (i : Instr) (hb : bundleOf i = some (oneMat w)) (hw : w < 2 ^ 24)
    (hd : i.wf = true → decodeMat w = .ok i) : Statement i := by
  intro h b hb' hne
  rw [hb] at hb'; cases hb'
  refine instrOfBundle_oneMat w i hw ?_ (hd h)
  rintro rfl; exact hne rfl

/-- An engine-slot word. -/
theorem engine (w : Nat) (i : Instr) (hb : bundleOf i = some (oneEng w)) (hw : w < 2 ^ 24)
    (hd : i.wf = true → decodeEng 0 0 w = .ok i) : Statement i := by
  intro h b hb' hne
  rw [hb] at hb'; cases hb'
  refine instrOfBundle_oneEng w i hw ?_ (hd h)
  rintro rfl; exact hne rfl

theorem bundleIssue (b : Bundle) : Statement (.bundleIssue b) := by
  intro h b' hb _
  simp only [bundleOf, Option.some.injEq] at hb
  subst hb
  exact of_decide_eq_true h

theorem grantPeriodStart (pair : Nat) : Statement (.grantPeriodStart pair) := no_bundle _ rfl

theorem opMoveComplete (pair : Nat) : Statement (.opMoveComplete pair) := no_bundle _ rfl

theorem loopCountExpire (core : Nat) (ctx : Nat) (lvl : Nat) : Statement (.loopCountExpire core ctx lvl) := no_bundle _ rfl

theorem contextSwitchOut (core : Nat) : Statement (.contextSwitchOut core) := no_bundle _ rfl

theorem contextResume (core : Nat) (ctx : Nat) : Statement (.contextResume core ctx) := no_bundle _ rfl

theorem stallInPlace (core : Nat) : Statement (.stallInPlace core) := no_bundle _ rfl

theorem stallEnd (core : Nat) : Statement (.stallEnd core) := no_bundle _ rfl

theorem resultWrite (core : Nat) (ctx : Nat) : Statement (.resultWrite core ctx) := no_bundle _ rfl

theorem memoryDataArrival (core : Nat) : Statement (.memoryDataArrival core) := no_bundle _ rfl

theorem bundleFetchFill (core : Nat) : Statement (.bundleFetchFill core) := no_bundle _ rfl

theorem registerMove (m : PlainHead) (d : BitVec 8) : Statement (.registerMove m d)  := by
  intro h b hb _
  simp only [bundleOf, encodeMove, Option.some.injEq] at hb
  subst hb
  simp only [Instr.wf, regMoveOk, Bool.and_eq_true, decide_eq_true_eq] at h
  obtain ⟨⟨hs, hr⟩, h0⟩ := h
  have hd := d.isLt
  have hlt : d.toNat < 2 ^ 10 := by omega
  have hsrc : srcIllegal 0 m.src.toNat = false := by simpa [PlainHead.ok, srcOk] using hs
  have hport := encodePlain_isPort m d.toNat hlt
  rw [decide_eq_false (by omega)] at hport
  have h9 : bitOf d.toNat 9 = false := by rw [bitOf, beq_eq_false_iff_ne]; omega
  have h8 : bitOf d.toNat 8 = false := by rw [bitOf, beq_eq_false_iff_ne]; omega
  have hf : fld d.toNat 7 0 = d.toNat := by simp only [fld]; omega
  have hbad : badMove 0 (encodePlain m d.toNat) = false := by
    rw [badMove, encodePlain_src m _ hlt, hsrc, encodePlain_dst m _ hlt, dstIllegal, h9, h8, hf, hr, encodePlain_w m _ hlt]
    simp
  refine instrOfBundle_oneMove _ _ ?_ h0 ?_
  · have := encodePlain_lt m _ hlt; omega
  · have hl : fld (encodePlain m d.toNat) 7 0 = d.toNat := by rw [encodePlain_low m _ hlt]; omega
    simp [decodeMove, badUnit, hport, hbad, plainOf_encodePlain m _ hlt, hl]

theorem portAWrite (m : PlainHead) (u : BitVec 4) : Statement (.portAWrite m u) :=
  portMove 0 m u _ (by omega) rfl rfl (by intro w h1 h2 h3 h4 h5 h6; simp [decodeMove, h1, h2, h3, h4, h5, h6])

theorem portBWrite (m : PlainHead) (u : BitVec 4) : Statement (.portBWrite m u) :=
  portMove 1 m u _ (by omega) rfl rfl (by intro w h1 h2 h3 h4 h5 h6; simp [decodeMove, h1, h2, h3, h4, h5, h6])

theorem portDOverride (m : PlainHead) (u : BitVec 4) : Statement (.portDOverride m u) :=
  portMove 2 m u _ (by omega) rfl rfl (by intro w h1 h2 h3 h4 h5 h6; simp [decodeMove, h1, h2, h3, h4, h5, h6])

theorem portCfgWrite (m : PlainHead) (u : BitVec 4) : Statement (.portCfgWrite m u) :=
  portMove 3 m u _ (by omega) rfl rfl (by intro w h1 h2 h3 h4 h5 h6; simp [decodeMove, h1, h2, h3, h4, h5, h6])

theorem sxAdd (m : MoveHead) (u : BitVec 1) : Statement (.sxAdd m u) :=
  trigger2 0 4 m u (fun v => .sxAdd m v) (by decide) (by decide) ⟨by decide, by decide⟩ (fun _ => rfl) (fun _ => rfl) ⟨rfl, rfl⟩

theorem sxSub (m : MoveHead) (u : BitVec 1) : Statement (.sxSub m u) :=
  trigger2 0 5 m u (fun v => .sxSub m v) (by decide) (by decide) ⟨by decide, by decide⟩ (fun _ => rfl) (fun _ => rfl) ⟨rfl, rfl⟩

theorem sxAnd (m : MoveHead) (u : BitVec 1) : Statement (.sxAnd m u) :=
  trigger2 0 6 m u (fun v => .sxAnd m v) (by decide) (by decide) ⟨by decide, by decide⟩ (fun _ => rfl) (fun _ => rfl) ⟨rfl, rfl⟩

theorem sxOr (m : MoveHead) (u : BitVec 1) : Statement (.sxOr m u) :=
  trigger2 0 7 m u (fun v => .sxOr m v) (by decide) (by decide) ⟨by decide, by decide⟩ (fun _ => rfl) (fun _ => rfl) ⟨rfl, rfl⟩

theorem sxXor (m : MoveHead) (u : BitVec 1) : Statement (.sxXor m u) :=
  trigger2 0 8 m u (fun v => .sxXor m v) (by decide) (by decide) ⟨by decide, by decide⟩ (fun _ => rfl) (fun _ => rfl) ⟨rfl, rfl⟩

theorem sxShl (m : MoveHead) (u : BitVec 1) : Statement (.sxShl m u) :=
  trigger2 0 9 m u (fun v => .sxShl m v) (by decide) (by decide) ⟨by decide, by decide⟩ (fun _ => rfl) (fun _ => rfl) ⟨rfl, rfl⟩

theorem sxShr (m : MoveHead) (u : BitVec 1) : Statement (.sxShr m u) :=
  trigger2 0 10 m u (fun v => .sxShr m v) (by decide) (by decide) ⟨by decide, by decide⟩ (fun _ => rfl) (fun _ => rfl) ⟨rfl, rfl⟩

theorem sxSar (m : MoveHead) (u : BitVec 1) : Statement (.sxSar m u) :=
  trigger2 0 11 m u (fun v => .sxSar m v) (by decide) (by decide) ⟨by decide, by decide⟩ (fun _ => rfl) (fun _ => rfl) ⟨rfl, rfl⟩

theorem sxMin (m : MoveHead) (u : BitVec 1) : Statement (.sxMin m u) :=
  trigger2 0 12 m u (fun v => .sxMin m v) (by decide) (by decide) ⟨by decide, by decide⟩ (fun _ => rfl) (fun _ => rfl) ⟨rfl, rfl⟩

theorem sxMax (m : MoveHead) (u : BitVec 1) : Statement (.sxMax m u) :=
  trigger2 0 13 m u (fun v => .sxMax m v) (by decide) (by decide) ⟨by decide, by decide⟩ (fun _ => rfl) (fun _ => rfl) ⟨rfl, rfl⟩

theorem sxMinu (m : MoveHead) (u : BitVec 1) : Statement (.sxMinu m u) :=
  trigger2 0 14 m u (fun v => .sxMinu m v) (by decide) (by decide) ⟨by decide, by decide⟩ (fun _ => rfl) (fun _ => rfl) ⟨rfl, rfl⟩

theorem sxMaxu (m : MoveHead) (u : BitVec 1) : Statement (.sxMaxu m u) :=
  trigger2 0 15 m u (fun v => .sxMaxu m v) (by decide) (by decide) ⟨by decide, by decide⟩ (fun _ => rfl) (fun _ => rfl) ⟨rfl, rfl⟩

theorem sxCeq (m : MoveHead) (u : BitVec 1) : Statement (.sxCeq m u) :=
  trigger2 0 16 m u (fun v => .sxCeq m v) (by decide) (by decide) ⟨by decide, by decide⟩ (fun _ => rfl) (fun _ => rfl) ⟨rfl, rfl⟩

theorem sxCne (m : MoveHead) (u : BitVec 1) : Statement (.sxCne m u) :=
  trigger2 0 17 m u (fun v => .sxCne m v) (by decide) (by decide) ⟨by decide, by decide⟩ (fun _ => rfl) (fun _ => rfl) ⟨rfl, rfl⟩

theorem sxClt (m : MoveHead) (u : BitVec 1) : Statement (.sxClt m u) :=
  trigger2 0 18 m u (fun v => .sxClt m v) (by decide) (by decide) ⟨by decide, by decide⟩ (fun _ => rfl) (fun _ => rfl) ⟨rfl, rfl⟩

theorem sxCltu (m : MoveHead) (u : BitVec 1) : Statement (.sxCltu m u) :=
  trigger2 0 19 m u (fun v => .sxCltu m v) (by decide) (by decide) ⟨by decide, by decide⟩ (fun _ => rfl) (fun _ => rfl) ⟨rfl, rfl⟩

theorem sxCle (m : MoveHead) (u : BitVec 1) : Statement (.sxCle m u) :=
  trigger2 0 20 m u (fun v => .sxCle m v) (by decide) (by decide) ⟨by decide, by decide⟩ (fun _ => rfl) (fun _ => rfl) ⟨rfl, rfl⟩

theorem sxCleu (m : MoveHead) (u : BitVec 1) : Statement (.sxCleu m u) :=
  trigger2 0 21 m u (fun v => .sxCleu m v) (by decide) (by decide) ⟨by decide, by decide⟩ (fun _ => rfl) (fun _ => rfl) ⟨rfl, rfl⟩

theorem sxSel (m : MoveHead) (u : BitVec 1) : Statement (.sxSel m u) :=
  trigger2 0 22 m u (fun v => .sxSel m v) (by decide) (by decide) ⟨by decide, by decide⟩ (fun _ => rfl) (fun _ => rfl) ⟨rfl, rfl⟩

theorem sxClz (m : MoveHead) (u : BitVec 1) : Statement (.sxClz m u) :=
  trigger2 0 23 m u (fun v => .sxClz m v) (by decide) (by decide) ⟨by decide, by decide⟩ (fun _ => rfl) (fun _ => rfl) ⟨rfl, rfl⟩

theorem sxPopc (m : MoveHead) (u : BitVec 1) : Statement (.sxPopc m u) :=
  trigger2 0 24 m u (fun v => .sxPopc m v) (by decide) (by decide) ⟨by decide, by decide⟩ (fun _ => rfl) (fun _ => rfl) ⟨rfl, rfl⟩

theorem sxSext (m : MoveHead) (u : BitVec 1) : Statement (.sxSext m u) :=
  trigger2 0 25 m u (fun v => .sxSext m v) (by decide) (by decide) ⟨by decide, by decide⟩ (fun _ => rfl) (fun _ => rfl) ⟨rfl, rfl⟩

theorem sxAdds (m : MoveHead) (u : BitVec 1) : Statement (.sxAdds m u) :=
  trigger2 0 26 m u (fun v => .sxAdds m v) (by decide) (by decide) ⟨by decide, by decide⟩ (fun _ => rfl) (fun _ => rfl) ⟨rfl, rfl⟩

theorem sxBfx (m : MoveHead) (u : BitVec 1) : Statement (.sxBfx m u) :=
  trigger2 0 27 m u (fun v => .sxBfx m v) (by decide) (by decide) ⟨by decide, by decide⟩ (fun _ => rfl) (fun _ => rfl) ⟨rfl, rfl⟩

theorem sxBfi (m : MoveHead) (u : BitVec 1) : Statement (.sxBfi m u) :=
  trigger2 0 28 m u (fun v => .sxBfi m v) (by decide) (by decide) ⟨by decide, by decide⟩ (fun _ => rfl) (fun _ => rfl) ⟨rfl, rfl⟩

theorem sxPass (m : MoveHead) (u : BitVec 1) : Statement (.sxPass m u) :=
  trigger2 0 29 m u (fun v => .sxPass m v) (by decide) (by decide) ⟨by decide, by decide⟩ (fun _ => rfl) (fun _ => rfl) ⟨rfl, rfl⟩

theorem sxPack (m : MoveHead) (u : BitVec 1) : Statement (.sxPack m u) :=
  trigger2 0 30 m u (fun v => .sxPack m v) (by decide) (by decide) ⟨by decide, by decide⟩ (fun _ => rfl) (fun _ => rfl) ⟨rfl, rfl⟩

theorem smMul (m : MoveHead) : Statement (.smMul m) := trigger 2 4 m _ (by decide) (by decide) (by decide) rfl rfl rfl

theorem smMulh (m : MoveHead) : Statement (.smMulh m) := trigger 2 5 m _ (by decide) (by decide) (by decide) rfl rfl rfl

theorem smMulhu (m : MoveHead) : Statement (.smMulhu m) := trigger 2 6 m _ (by decide) (by decide) (by decide) rfl rfl rfl

theorem smMadd (m : MoveHead) : Statement (.smMadd m) := trigger 2 7 m _ (by decide) (by decide) (by decide) rfl rfl rfl

theorem smDiv (m : MoveHead) : Statement (.smDiv m) := trigger 2 8 m _ (by decide) (by decide) (by decide) rfl rfl rfl

theorem smDivu (m : MoveHead) : Statement (.smDivu m) := trigger 2 9 m _ (by decide) (by decide) (by decide) rfl rfl rfl

theorem smRem (m : MoveHead) : Statement (.smRem m) := trigger 2 10 m _ (by decide) (by decide) (by decide) rfl rfl rfl

theorem smRemu (m : MoveHead) : Statement (.smRemu m) := trigger 2 11 m _ (by decide) (by decide) (by decide) rfl rfl rfl

theorem jmp (m : MoveHead) : Statement (.jmp m) := trigger 3 4 m _ (by decide) (by decide) (by decide) rfl rfl rfl

theorem br (m : MoveHead) : Statement (.br m) := trigger 3 5 m _ (by decide) (by decide) (by decide) rfl rfl rfl

theorem bnz (m : MoveHead) : Statement (.bnz m) := trigger 3 6 m _ (by decide) (by decide) (by decide) rfl rfl rfl

theorem bz (m : MoveHead) : Statement (.bz m) := trigger 3 7 m _ (by decide) (by decide) (by decide) rfl rfl rfl

theorem call (m : MoveHead) : Statement (.call m) := trigger 3 8 m _ (by decide) (by decide) (by decide) rfl rfl rfl

theorem ret (m : MoveHead) : Statement (.ret m) := trigger 3 9 m _ (by decide) (by decide) (by decide) rfl rfl rfl

theorem loop (m : MoveHead) : Statement (.loop m) := trigger 3 10 m _ (by decide) (by decide) (by decide) rfl rfl rfl

theorem mloop (m : MoveHead) : Statement (.mloop m) := trigger 3 11 m _ (by decide) (by decide) (by decide) rfl rfl rfl

theorem lbrk (m : MoveHead) : Statement (.lbrk m) := trigger 3 12 m _ (by decide) (by decide) (by decide) rfl rfl rfl

theorem rept (m : MoveHead) : Statement (.rept m) := trigger 3 13 m _ (by decide) (by decide) (by decide) rfl rfl rfl

theorem trap (m : MoveHead) : Statement (.trap m) := trigger 3 14 m _ (by decide) (by decide) (by decide) rfl rfl rfl

theorem eret (m : MoveHead) : Statement (.eret m) := trigger 3 15 m _ (by decide) (by decide) (by decide) rfl rfl rfl

theorem wait (m : MoveHead) : Statement (.wait m) := trigger 3 16 m _ (by decide) (by decide) (by decide) rfl rfl rfl

theorem warm (m : MoveHead) : Statement (.warm m) := trigger 3 17 m _ (by decide) (by decide) (by decide) rfl rfl rfl

theorem sysr (m : MoveHead) : Statement (.sysr m) := trigger 3 18 m _ (by decide) (by decide) (by decide) rfl rfl rfl

theorem sysw (m : MoveHead) : Statement (.sysw m) := trigger 3 19 m _ (by decide) (by decide) (by decide) rfl rfl rfl

theorem halt (m : MoveHead) : Statement (.halt m) := trigger 3 20 m _ (by decide) (by decide) (by decide) rfl rfl rfl

theorem ldb (m : MoveHead) : Statement (.ldb m) := trigger 4 4 m _ (by decide) (by decide) (by decide) rfl rfl rfl

theorem ldbu (m : MoveHead) : Statement (.ldbu m) := trigger 4 5 m _ (by decide) (by decide) (by decide) rfl rfl rfl

theorem ldh (m : MoveHead) : Statement (.ldh m) := trigger 4 6 m _ (by decide) (by decide) (by decide) rfl rfl rfl

theorem ldhu (m : MoveHead) : Statement (.ldhu m) := trigger 4 7 m _ (by decide) (by decide) (by decide) rfl rfl rfl

theorem ldw (m : MoveHead) : Statement (.ldw m) := trigger 4 8 m _ (by decide) (by decide) (by decide) rfl rfl rfl

theorem ldwu (m : MoveHead) : Statement (.ldwu m) := trigger 4 9 m _ (by decide) (by decide) (by decide) rfl rfl rfl

theorem ldd (m : MoveHead) : Statement (.ldd m) := trigger 4 10 m _ (by decide) (by decide) (by decide) rfl rfl rfl

theorem stb (m : MoveHead) : Statement (.stb m) := trigger 4 11 m _ (by decide) (by decide) (by decide) rfl rfl rfl

theorem sth (m : MoveHead) : Statement (.sth m) := trigger 4 12 m _ (by decide) (by decide) (by decide) rfl rfl rfl

theorem stw (m : MoveHead) : Statement (.stw m) := trigger 4 13 m _ (by decide) (by decide) (by decide) rfl rfl rfl

theorem std (m : MoveHead) : Statement (.std m) := trigger 4 14 m _ (by decide) (by decide) (by decide) rfl rfl rfl

theorem fence (m : MoveHead) : Statement (.fence m) := trigger 4 15 m _ (by decide) (by decide) (by decide) rfl rfl rfl

theorem pref (m : MoveHead) : Statement (.pref m) := trigger 4 16 m _ (by decide) (by decide) (by decide) rfl rfl rfl

theorem wbl (m : MoveHead) : Statement (.wbl m) := trigger 4 17 m _ (by decide) (by decide) (by decide) rfl rfl rfl

theorem invl (m : MoveHead) : Statement (.invl m) := trigger 4 18 m _ (by decide) (by decide) (by decide) rfl rfl rfl

theorem vld (m : MoveHead) : Statement (.vld m) := trigger 5 4 m _ (by decide) (by decide) (by decide) rfl rfl rfl

theorem vst (m : MoveHead) : Statement (.vst m) := trigger 5 5 m _ (by decide) (by decide) (by decide) rfl rfl rfl

theorem vlds (m : MoveHead) : Statement (.vlds m) := trigger 5 6 m _ (by decide) (by decide) (by decide) rfl rfl rfl

theorem vsts (m : MoveHead) : Statement (.vsts m) := trigger 5 7 m _ (by decide) (by decide) (by decide) rfl rfl rfl

theorem vgth (m : MoveHead) : Statement (.vgth m) := trigger 5 8 m _ (by decide) (by decide) (by decide) rfl rfl rfl

theorem vsct (m : MoveHead) : Statement (.vsct m) := trigger 5 9 m _ (by decide) (by decide) (by decide) rfl rfl rfl

theorem vldb (m : MoveHead) : Statement (.vldb m) := trigger 5 10 m _ (by decide) (by decide) (by decide) rfl rfl rfl

theorem vldm (m : MoveHead) : Statement (.vldm m) := trigger 5 11 m _ (by decide) (by decide) (by decide) rfl rfl rfl

theorem vstm (m : MoveHead) : Statement (.vstm m) := trigger 5 12 m _ (by decide) (by decide) (by decide) rfl rfl rfl

theorem vpref (m : MoveHead) : Statement (.vpref m) := trigger 5 13 m _ (by decide) (by decide) (by decide) rfl rfl rfl

theorem aadd (m : MoveHead) : Statement (.aadd m) := trigger 6 4 m _ (by decide) (by decide) (by decide) rfl rfl rfl

theorem aincb (m : MoveHead) : Statement (.aincb m) := trigger 6 5 m _ (by decide) (by decide) (by decide) rfl rfl rfl

theorem acas (m : MoveHead) : Statement (.acas m) := trigger 6 6 m _ (by decide) (by decide) (by decide) rfl rfl rfl

theorem aswp (m : MoveHead) : Statement (.aswp m) := trigger 6 7 m _ (by decide) (by decide) (by decide) rfl rfl rfl

theorem aand (m : MoveHead) : Statement (.aand m) := trigger 6 8 m _ (by decide) (by decide) (by decide) rfl rfl rfl

theorem aor (m : MoveHead) : Statement (.aor m) := trigger 6 9 m _ (by decide) (by decide) (by decide) rfl rfl rfl

theorem axor (m : MoveHead) : Statement (.axor m) := trigger 6 10 m _ (by decide) (by decide) (by decide) rfl rfl rfl

theorem amin (m : MoveHead) : Statement (.amin m) := trigger 6 11 m _ (by decide) (by decide) (by decide) rfl rfl rfl

theorem amax (m : MoveHead) : Statement (.amax m) := trigger 6 12 m _ (by decide) (by decide) (by decide) rfl rfl rfl

theorem aminu (m : MoveHead) : Statement (.aminu m) := trigger 6 13 m _ (by decide) (by decide) (by decide) rfl rfl rfl

theorem amaxu (m : MoveHead) : Statement (.amaxu m) := trigger 6 14 m _ (by decide) (by decide) (by decide) rfl rfl rfl

theorem afadd (m : MoveHead) : Statement (.afadd m) := trigger 6 15 m _ (by decide) (by decide) (by decide) rfl rfl rfl

theorem afmin (m : MoveHead) : Statement (.afmin m) := trigger 6 16 m _ (by decide) (by decide) (by decide) rfl rfl rfl

theorem afmax (m : MoveHead) : Statement (.afmax m) := trigger 6 17 m _ (by decide) (by decide) (by decide) rfl rfl rfl

theorem apcas (m : MoveHead) : Statement (.apcas m) := trigger 6 18 m _ (by decide) (by decide) (by decide) rfl rfl rfl

theorem apld (m : MoveHead) : Statement (.apld m) := trigger 6 19 m _ (by decide) (by decide) (by decide) rfl rfl rfl

theorem vaAdd (m : MoveHead) (u : BitVec 1) : Statement (.vaAdd m u) :=
  trigger2 7 4 m u (fun v => .vaAdd m v) (by decide) (by decide) ⟨by decide, by decide⟩ (fun _ => rfl) (fun _ => rfl) ⟨rfl, rfl⟩

theorem vaSub (m : MoveHead) (u : BitVec 1) : Statement (.vaSub m u) :=
  trigger2 7 5 m u (fun v => .vaSub m v) (by decide) (by decide) ⟨by decide, by decide⟩ (fun _ => rfl) (fun _ => rfl) ⟨rfl, rfl⟩

theorem vaMul (m : MoveHead) (u : BitVec 1) : Statement (.vaMul m u) :=
  trigger2 7 6 m u (fun v => .vaMul m v) (by decide) (by decide) ⟨by decide, by decide⟩ (fun _ => rfl) (fun _ => rfl) ⟨rfl, rfl⟩

theorem vaFma (m : MoveHead) (u : BitVec 1) : Statement (.vaFma m u) :=
  trigger2 7 7 m u (fun v => .vaFma m v) (by decide) (by decide) ⟨by decide, by decide⟩ (fun _ => rfl) (fun _ => rfl) ⟨rfl, rfl⟩

theorem vaFms (m : MoveHead) (u : BitVec 1) : Statement (.vaFms m u) :=
  trigger2 7 8 m u (fun v => .vaFms m v) (by decide) (by decide) ⟨by decide, by decide⟩ (fun _ => rfl) (fun _ => rfl) ⟨rfl, rfl⟩

theorem vaMin (m : MoveHead) (u : BitVec 1) : Statement (.vaMin m u) :=
  trigger2 7 9 m u (fun v => .vaMin m v) (by decide) (by decide) ⟨by decide, by decide⟩ (fun _ => rfl) (fun _ => rfl) ⟨rfl, rfl⟩

theorem vaMax (m : MoveHead) (u : BitVec 1) : Statement (.vaMax m u) :=
  trigger2 7 10 m u (fun v => .vaMax m v) (by decide) (by decide) ⟨by decide, by decide⟩ (fun _ => rfl) (fun _ => rfl) ⟨rfl, rfl⟩

theorem vaAbs (m : MoveHead) (u : BitVec 1) : Statement (.vaAbs m u) :=
  trigger2 7 11 m u (fun v => .vaAbs m v) (by decide) (by decide) ⟨by decide, by decide⟩ (fun _ => rfl) (fun _ => rfl) ⟨rfl, rfl⟩

theorem vaNeg (m : MoveHead) (u : BitVec 1) : Statement (.vaNeg m u) :=
  trigger2 7 12 m u (fun v => .vaNeg m v) (by decide) (by decide) ⟨by decide, by decide⟩ (fun _ => rfl) (fun _ => rfl) ⟨rfl, rfl⟩

theorem vaCeq (m : MoveHead) (u : BitVec 1) : Statement (.vaCeq m u) :=
  trigger2 7 13 m u (fun v => .vaCeq m v) (by decide) (by decide) ⟨by decide, by decide⟩ (fun _ => rfl) (fun _ => rfl) ⟨rfl, rfl⟩

theorem vaClt (m : MoveHead) (u : BitVec 1) : Statement (.vaClt m u) :=
  trigger2 7 14 m u (fun v => .vaClt m v) (by decide) (by decide) ⟨by decide, by decide⟩ (fun _ => rfl) (fun _ => rfl) ⟨rfl, rfl⟩

theorem vaCle (m : MoveHead) (u : BitVec 1) : Statement (.vaCle m u) :=
  trigger2 7 15 m u (fun v => .vaCle m v) (by decide) (by decide) ⟨by decide, by decide⟩ (fun _ => rfl) (fun _ => rfl) ⟨rfl, rfl⟩

theorem vaCun (m : MoveHead) (u : BitVec 1) : Statement (.vaCun m u) :=
  trigger2 7 16 m u (fun v => .vaCun m v) (by decide) (by decide) ⟨by decide, by decide⟩ (fun _ => rfl) (fun _ => rfl) ⟨rfl, rfl⟩

theorem vaSel (m : MoveHead) (u : BitVec 1) : Statement (.vaSel m u) :=
  trigger2 7 17 m u (fun v => .vaSel m v) (by decide) (by decide) ⟨by decide, by decide⟩ (fun _ => rfl) (fun _ => rfl) ⟨rfl, rfl⟩

theorem vaCvt (m : MoveHead) (u : BitVec 1) : Statement (.vaCvt m u) :=
  trigger2 7 18 m u (fun v => .vaCvt m v) (by decide) (by decide) ⟨by decide, by decide⟩ (fun _ => rfl) (fun _ => rfl) ⟨rfl, rfl⟩

theorem vaAnd (m : MoveHead) (u : BitVec 1) : Statement (.vaAnd m u) :=
  trigger2 7 19 m u (fun v => .vaAnd m v) (by decide) (by decide) ⟨by decide, by decide⟩ (fun _ => rfl) (fun _ => rfl) ⟨rfl, rfl⟩

theorem vaOr (m : MoveHead) (u : BitVec 1) : Statement (.vaOr m u) :=
  trigger2 7 20 m u (fun v => .vaOr m v) (by decide) (by decide) ⟨by decide, by decide⟩ (fun _ => rfl) (fun _ => rfl) ⟨rfl, rfl⟩

theorem vaXor (m : MoveHead) (u : BitVec 1) : Statement (.vaXor m u) :=
  trigger2 7 21 m u (fun v => .vaXor m v) (by decide) (by decide) ⟨by decide, by decide⟩ (fun _ => rfl) (fun _ => rfl) ⟨rfl, rfl⟩

theorem vaShl (m : MoveHead) (u : BitVec 1) : Statement (.vaShl m u) :=
  trigger2 7 22 m u (fun v => .vaShl m v) (by decide) (by decide) ⟨by decide, by decide⟩ (fun _ => rfl) (fun _ => rfl) ⟨rfl, rfl⟩

theorem vaShr (m : MoveHead) (u : BitVec 1) : Statement (.vaShr m u) :=
  trigger2 7 23 m u (fun v => .vaShr m v) (by decide) (by decide) ⟨by decide, by decide⟩ (fun _ => rfl) (fun _ => rfl) ⟨rfl, rfl⟩

theorem vaSar (m : MoveHead) (u : BitVec 1) : Statement (.vaSar m u) :=
  trigger2 7 24 m u (fun v => .vaSar m v) (by decide) (by decide) ⟨by decide, by decide⟩ (fun _ => rfl) (fun _ => rfl) ⟨rfl, rfl⟩

theorem vaScl (m : MoveHead) (u : BitVec 1) : Statement (.vaScl m u) :=
  trigger2 7 25 m u (fun v => .vaScl m v) (by decide) (by decide) ⟨by decide, by decide⟩ (fun _ => rfl) (fun _ => rfl) ⟨rfl, rfl⟩

theorem vaClmp (m : MoveHead) (u : BitVec 1) : Statement (.vaClmp m u) :=
  trigger2 7 26 m u (fun v => .vaClmp m v) (by decide) (by decide) ⟨by decide, by decide⟩ (fun _ => rfl) (fun _ => rfl) ⟨rfl, rfl⟩

theorem vaRnd (m : MoveHead) (u : BitVec 1) : Statement (.vaRnd m u) :=
  trigger2 7 27 m u (fun v => .vaRnd m v) (by decide) (by decide) ⟨by decide, by decide⟩ (fun _ => rfl) (fun _ => rfl) ⟨rfl, rfl⟩

theorem vaQnt (m : MoveHead) (u : BitVec 1) : Statement (.vaQnt m u) :=
  trigger2 7 28 m u (fun v => .vaQnt m v) (by decide) (by decide) ⟨by decide, by decide⟩ (fun _ => rfl) (fun _ => rfl) ⟨rfl, rfl⟩

theorem vaDqn (m : MoveHead) (u : BitVec 1) : Statement (.vaDqn m u) :=
  trigger2 7 29 m u (fun v => .vaDqn m v) (by decide) (by decide) ⟨by decide, by decide⟩ (fun _ => rfl) (fun _ => rfl) ⟨rfl, rfl⟩

theorem vaMov (m : MoveHead) (u : BitVec 1) : Statement (.vaMov m u) :=
  trigger2 7 30 m u (fun v => .vaMov m v) (by decide) (by decide) ⟨by decide, by decide⟩ (fun _ => rfl) (fun _ => rfl) ⟨rfl, rfl⟩

theorem rsq (m : MoveHead) : Statement (.rsq m) := trigger 9 4 m _ (by decide) (by decide) (by decide) rfl rfl rfl

theorem rcp (m : MoveHead) : Statement (.rcp m) := trigger 9 5 m _ (by decide) (by decide) (by decide) rfl rfl rfl

theorem sqrt (m : MoveHead) : Statement (.sqrt m) := trigger 9 6 m _ (by decide) (by decide) (by decide) rfl rfl rfl

theorem exp2 (m : MoveHead) : Statement (.exp2 m) := trigger 9 7 m _ (by decide) (by decide) (by decide) rfl rfl rfl

theorem log2 (m : MoveHead) : Statement (.log2 m) := trigger 9 8 m _ (by decide) (by decide) (by decide) rfl rfl rfl

theorem exp (m : MoveHead) : Statement (.exp m) := trigger 9 9 m _ (by decide) (by decide) (by decide) rfl rfl rfl

theorem tanh (m : MoveHead) : Statement (.tanh m) := trigger 9 10 m _ (by decide) (by decide) (by decide) rfl rfl rfl

theorem sigm (m : MoveHead) : Statement (.sigm m) := trigger 9 11 m _ (by decide) (by decide) (by decide) rfl rfl rfl

theorem silu (m : MoveHead) : Statement (.silu m) := trigger 9 12 m _ (by decide) (by decide) (by decide) rfl rfl rfl

theorem rsum (m : MoveHead) : Statement (.rsum m) := trigger 10 4 m _ (by decide) (by decide) (by decide) rfl rfl rfl

theorem rmax (m : MoveHead) : Statement (.rmax m) := trigger 10 5 m _ (by decide) (by decide) (by decide) rfl rfl rfl

theorem rmin (m : MoveHead) : Statement (.rmin m) := trigger 10 6 m _ (by decide) (by decide) (by decide) rfl rfl rfl

theorem bcst (m : MoveHead) : Statement (.bcst m) := trigger 10 7 m _ (by decide) (by decide) (by decide) rfl rfl rfl

theorem perm (m : MoveHead) : Statement (.perm m) := trigger 10 8 m _ (by decide) (by decide) (by decide) rfl rfl rfl

theorem gxch (m : MoveHead) : Statement (.gxch m) := trigger 10 9 m _ (by decide) (by decide) (by decide) rfl rfl rfl

theorem rot (m : MoveHead) : Statement (.rot m) := trigger 10 10 m _ (by decide) (by decide) (by decide) rfl rfl rfl

theorem scan (m : MoveHead) : Statement (.scan m) := trigger 10 11 m _ (by decide) (by decide) (by decide) rfl rfl rfl

theorem cmpr (m : MoveHead) : Statement (.cmpr m) := trigger 10 12 m _ (by decide) (by decide) (by decide) rfl rfl rfl

theorem expd (m : MoveHead) : Statement (.expd m) := trigger 10 13 m _ (by decide) (by decide) (by decide) rfl rfl rfl

theorem popm (m : MoveHead) : Statement (.popm m) := trigger 10 14 m _ (by decide) (by decide) (by decide) rfl rfl rfl

theorem ffs (m : MoveHead) : Statement (.ffs m) := trigger 10 15 m _ (by decide) (by decide) (by decide) rfl rfl rfl

theorem vtos (m : MoveHead) : Statement (.vtos m) := trigger 10 16 m _ (by decide) (by decide) (by decide) rfl rfl rfl

theorem stov (m : MoveHead) : Statement (.stov m) := trigger 10 17 m _ (by decide) (by decide) (by decide) rfl rfl rfl

theorem sadd (m : MoveHead) : Statement (.sadd m) := trigger 11 4 m _ (by decide) (by decide) (by decide) rfl rfl rfl

theorem saddc (m : MoveHead) : Statement (.saddc m) := trigger 11 5 m _ (by decide) (by decide) (by decide) rfl rfl rfl

theorem srdn (m : MoveHead) : Statement (.srdn m) := trigger 11 6 m _ (by decide) (by decide) (by decide) rfl rfl rfl

theorem shdr (m : MoveHead) : Statement (.shdr m) := trigger 11 7 m _ (by decide) (by decide) (by decide) rfl rfl rfl

theorem sclr (m : MoveHead) : Statement (.sclr m) := trigger 11 8 m _ (by decide) (by decide) (by decide) rfl rfl rfl

theorem sevt (m : MoveHead) : Statement (.sevt m) := trigger 11 9 m _ (by decide) (by decide) (by decide) rfl rfl rfl

theorem sldr (m : MoveHead) : Statement (.sldr m) := trigger 11 10 m _ (by decide) (by decide) (by decide) rfl rfl rfl

theorem sstt (m : MoveHead) : Statement (.sstt m) := trigger 11 11 m _ (by decide) (by decide) (by decide) rfl rfl rfl

theorem matrixNop : Statement (.matrixNop) := matrix 0 _ rfl (by decide) (fun _ => rfl)

theorem mcfg (a : BitVec 4) : Statement (.mcfg a) := by
  obtain ⟨h1, h2, h3, h4, h5, h6, h7, h8⟩ := matWord_fields 1 0 a.toNat 0 0 (by decide) (by decide) a.isLt (by decide) (by decide)
  refine matrix _ _ rfl h8 (fun h => ?_)
  simp [decodeMat, matIllegal, h1, h2, h3, h4, h5, h6, h7]

theorem mma (t : BitVec 3) (a : BitVec 4) (b : BitVec 4) (n : BitVec 8) : Statement (.mma t a b n) := by
  obtain ⟨h1, h2, h3, h4, h5, h6, h7, h8⟩ := matWord_fields 2 t.toNat a.toNat b.toNat n.toNat (by decide) t.isLt a.isLt b.isLt n.isLt
  refine matrix _ _ rfl h8 (fun h => ?_)
  simp [decodeMat, matIllegal, h1, h2, h3, h4, h5, h6, h7]

theorem mmaz (t : BitVec 3) (a : BitVec 4) (b : BitVec 4) (n : BitVec 8) : Statement (.mmaz t a b n) := by
  obtain ⟨h1, h2, h3, h4, h5, h6, h7, h8⟩ := matWord_fields 3 t.toNat a.toNat b.toNat n.toNat (by decide) t.isLt a.isLt b.isLt n.isLt
  refine matrix _ _ rfl h8 (fun h => ?_)
  simp [decodeMat, matIllegal, h1, h2, h3, h4, h5, h6, h7]

theorem mmar (t : BitVec 3) (a : BitVec 4) (b : BitVec 4) (n : BitVec 8) : Statement (.mmar t a b n) := by
  obtain ⟨h1, h2, h3, h4, h5, h6, h7, h8⟩ := matWord_fields 4 t.toNat a.toNat b.toNat n.toNat (by decide) t.isLt a.isLt b.isLt n.isLt
  refine matrix _ _ rfl h8 (fun h => ?_)
  simp [decodeMat, matIllegal, h1, h2, h3, h4, h5, h6, h7]

theorem mmap (t : BitVec 3) (a : BitVec 4) (d : BitVec 4) (n : BitVec 8) : Statement (.mmap t a d n) := by
  obtain ⟨h1, h2, h3, h4, h5, h6, h7, h8⟩ := matWord_fields 5 t.toNat a.toNat d.toNat n.toNat (by decide) t.isLt a.isLt d.isLt n.isLt
  refine matrix _ _ rfl h8 (fun h => ?_)
  simp [decodeMat, matIllegal, h1, h2, h3, h4, h5, h6, h7]

theorem accrd (t : BitVec 3) (a : BitVec 4) (n : BitVec 8) : Statement (.accrd t a n) := by
  obtain ⟨h1, h2, h3, h4, h5, h6, h7, h8⟩ := matWord_fields 6 t.toNat a.toNat 0 n.toNat (by decide) t.isLt a.isLt (by decide) n.isLt
  refine matrix _ _ rfl h8 (fun h => ?_)
  simp only [Instr.wf, tileBeatsOk, decide_eq_true_eq] at h
  simp [decodeMat, matIllegal, h1, h2, h3, h4, h5, h6, h7]
  all_goals omega

theorem accwr (t : BitVec 3) (a : BitVec 4) (n : BitVec 8) : Statement (.accwr t a n) := by
  obtain ⟨h1, h2, h3, h4, h5, h6, h7, h8⟩ := matWord_fields 7 t.toNat a.toNat 0 n.toNat (by decide) t.isLt a.isLt (by decide) n.isLt
  refine matrix _ _ rfl h8 (fun h => ?_)
  simp only [Instr.wf, tileBeatsOk, decide_eq_true_eq] at h
  simp [decodeMat, matIllegal, h1, h2, h3, h4, h5, h6, h7]
  all_goals omega

theorem acccl (t : BitVec 3) : Statement (.acccl t) := by
  obtain ⟨h1, h2, h3, h4, h5, h6, h7, h8⟩ := matWord_fields 8 t.toNat 0 0 0 (by decide) t.isLt (by decide) (by decide) (by decide)
  refine matrix _ _ rfl h8 (fun h => ?_)
  simp [decodeMat, matIllegal, h1, h2, h3, h4, h5, h6, h7]

theorem pldef (p : BitVec 3) (a : BitVec 4) (n : BitVec 8) : Statement (.pldef p a n) := by
  obtain ⟨h1, h2, h3, h4, h5, h6, h7, h8⟩ := matWord_fields 9 p.toNat a.toNat 0 n.toNat (by decide) p.isLt a.isLt (by decide) n.isLt
  refine matrix _ _ rfl h8 (fun h => ?_)
  simp [decodeMat, matIllegal, h1, h2, h3, h4, h5, h6, h7]

theorem mmrk (g : BitVec 8) : Statement (.mmrk g) := by
  have hg := g.isLt
  refine matrix _ _ rfl (by omega) (fun _ => ?_)
  have h1 : fld (10 * 2 ^ 19 + g.toNat * 2 ^ 8) 23 19 = 10 := by simp only [fld]; omega
  have h2 : fld (10 * 2 ^ 19 + g.toNat * 2 ^ 8) 18 16 = 0 := by simp only [fld]; omega
  have h3 : fld (10 * 2 ^ 19 + g.toNat * 2 ^ 8) 7 0 = 0 := by simp only [fld]; omega
  have h4 : fld (10 * 2 ^ 19 + g.toNat * 2 ^ 8) 15 8 = g.toNat := by simp only [fld]; omega
  generalize 10 * 2 ^ 19 + g.toNat * 2 ^ 8 = w at *
  simp [decodeMat, matIllegal, h1, h2, h3, h4]

theorem matrixOpIssue (core : Nat) : Statement (.matrixOpIssue core) := no_bundle _ rfl

theorem matrixBeat (core : Nat) : Statement (.matrixBeat core) := no_bundle _ rfl

theorem remoteOperandArrival (core : Nat) : Statement (.remoteOperandArrival core) := no_bundle _ rfl

theorem mmrkFire (core : Nat) : Statement (.mmrkFire core) := no_bundle _ rfl

theorem engineNop : Statement (.engineNop) := engine 0 _ rfl (by decide) (fun _ => rfl)

theorem cpy (c : BitVec 5) (a : BitVec 4) (imm : BitVec 10) : Statement (.cpy c a imm) := by
  obtain ⟨h1, h2, h3, h4, h5, h6, h7, h8⟩ := engWord_fields 1 c.toNat a.toNat imm.toNat (by decide) c.isLt a.isLt imm.isLt
  refine engine _ _ rfl h8 (fun h => ?_)
  simp only [Instr.wf, immOk, immWideOk, decide_eq_true_eq] at h
  have e1 := engImm_engWord 1 c.toNat a.toNat imm.toNat (by decide) c.isLt a.isLt (by omega)
  have e2 := immIllegal_engWord 1 c.toNat a.toNat imm.toNat (by decide) c.isLt a.isLt (by omega)
  have h9 : ¬ 255 < imm.toNat := by omega
  simp [decodeEng, engIllegal, h1, h2, h3, h4, e1, e2, h9]

theorem cpn (c : BitVec 5) (a : BitVec 4) (imm : BitVec 10) : Statement (.cpn c a imm) := by
  obtain ⟨h1, h2, h3, h4, h5, h6, h7, h8⟩ := engWord_fields 2 c.toNat a.toNat imm.toNat (by decide) c.isLt a.isLt imm.isLt
  refine engine _ _ rfl h8 (fun h => ?_)
  simp only [Instr.wf, immOk, immWideOk, decide_eq_true_eq] at h
  have e1 := engImm_engWord 2 c.toNat a.toNat imm.toNat (by decide) c.isLt a.isLt (by omega)
  have e2 := immIllegal_engWord 2 c.toNat a.toNat imm.toNat (by decide) c.isLt a.isLt (by omega)
  have h9 : ¬ 255 < imm.toNat := by omega
  simp [decodeEng, engIllegal, h1, h2, h3, h4, e1, e2, h9]

theorem cpz (c : BitVec 5) (a : BitVec 4) (imm : BitVec 10) : Statement (.cpz c a imm) := by
  obtain ⟨h1, h2, h3, h4, h5, h6, h7, h8⟩ := engWord_fields 3 c.toNat a.toNat imm.toNat (by decide) c.isLt a.isLt imm.isLt
  refine engine _ _ rfl h8 (fun h => ?_)
  simp only [Instr.wf, immOk, immWideOk, decide_eq_true_eq] at h
  have e1 := engImm_engWord 3 c.toNat a.toNat imm.toNat (by decide) c.isLt a.isLt (by omega)
  have e2 := immIllegal_engWord 3 c.toNat a.toNat imm.toNat (by decide) c.isLt a.isLt (by omega)
  have h9 : ¬ 255 < imm.toNat := by omega
  simp [decodeEng, engIllegal, h1, h2, h3, h4, e1, e2, h9]

theorem cpc (c : BitVec 5) (a : BitVec 4) (imm : BitVec 10) : Statement (.cpc c a imm) := by
  obtain ⟨h1, h2, h3, h4, h5, h6, h7, h8⟩ := engWord_fields 4 c.toNat a.toNat imm.toNat (by decide) c.isLt a.isLt imm.isLt
  refine engine _ _ rfl h8 (fun h => ?_)
  simp only [Instr.wf, immOk, immWideOk, decide_eq_true_eq] at h
  have e1 := engImm_engWord 4 c.toNat a.toNat imm.toNat (by decide) c.isLt a.isLt (by omega)
  have e2 := immIllegal_engWord 4 c.toNat a.toNat imm.toNat (by decide) c.isLt a.isLt (by omega)
  have h9 : ¬ 255 < imm.toNat := by omega
  simp [decodeEng, engIllegal, h1, h2, h3, h4, e1, e2, h9]

theorem cpk (c : BitVec 5) (a : BitVec 4) (imm : BitVec 10) : Statement (.cpk c a imm) := by
  obtain ⟨h1, h2, h3, h4, h5, h6, h7, h8⟩ := engWord_fields 5 c.toNat a.toNat imm.toNat (by decide) c.isLt a.isLt imm.isLt
  refine engine _ _ rfl h8 (fun h => ?_)
  simp only [Instr.wf, immOk, immWideOk, decide_eq_true_eq] at h
  have e1 := engImm_engWord 5 c.toNat a.toNat imm.toNat (by decide) c.isLt a.isLt (by omega)
  have e2 := immIllegal_engWord 5 c.toNat a.toNat imm.toNat (by decide) c.isLt a.isLt (by omega)
  have h9 : ¬ 255 < imm.toNat := by omega
  simp [decodeEng, engIllegal, h1, h2, h3, h4, e1, e2, h9]

theorem cpe (c : BitVec 5) (a : BitVec 4) (imm : BitVec 10) : Statement (.cpe c a imm) := by
  obtain ⟨h1, h2, h3, h4, h5, h6, h7, h8⟩ := engWord_fields 6 c.toNat a.toNat imm.toNat (by decide) c.isLt a.isLt imm.isLt
  refine engine _ _ rfl h8 (fun h => ?_)
  simp only [Instr.wf, immOk, immWideOk, decide_eq_true_eq] at h
  have e1 := engImm_engWord 6 c.toNat a.toNat imm.toNat (by decide) c.isLt a.isLt (by omega)
  have e2 := immIllegal_engWord 6 c.toNat a.toNat imm.toNat (by decide) c.isLt a.isLt (by omega)
  have h9 : ¬ 255 < imm.toNat := by omega
  simp [decodeEng, engIllegal, h1, h2, h3, h4, e1, e2, h9]

theorem send (c : BitVec 5) (a : BitVec 4) (imm : BitVec 10) : Statement (.send c a imm) := by
  obtain ⟨h1, h2, h3, h4, h5, h6, h7, h8⟩ := engWord_fields 7 c.toNat a.toNat imm.toNat (by decide) c.isLt a.isLt imm.isLt
  refine engine _ _ rfl h8 (fun h => ?_)
  simp only [Instr.wf, immOk, immWideOk, decide_eq_true_eq] at h
  have e1 := engImm_engWord 7 c.toNat a.toNat imm.toNat (by decide) c.isLt a.isLt (by omega)
  have e2 := immIllegal_engWord 7 c.toNat a.toNat imm.toNat (by decide) c.isLt a.isLt (by omega)
  have h9 : ¬ 255 < imm.toNat := by omega
  simp [decodeEng, engIllegal, h1, h2, h3, h4, e1, e2, h9]

theorem recv (c : BitVec 5) (a : BitVec 4) (imm : BitVec 10) : Statement (.recv c a imm) := by
  obtain ⟨h1, h2, h3, h4, h5, h6, h7, h8⟩ := engWord_fields 8 c.toNat a.toNat imm.toNat (by decide) c.isLt a.isLt imm.isLt
  refine engine _ _ rfl h8 (fun h => ?_)
  simp only [Instr.wf, immOk, immWideOk, decide_eq_true_eq] at h
  have e1 := engImm_engWord 8 c.toNat a.toNat imm.toNat (by decide) c.isLt a.isLt (by omega)
  have e2 := immIllegal_engWord 8 c.toNat a.toNat imm.toNat (by decide) c.isLt a.isLt (by omega)
  have h9 : ¬ 255 < imm.toNat := by omega
  simp [decodeEng, engIllegal, h1, h2, h3, h4, e1, e2, h9]

theorem chw (c : BitVec 5) (a : BitVec 4) (imm : BitVec 10) : Statement (.chw c a imm) := by
  obtain ⟨h1, h2, h3, h4, h5, h6, h7, h8⟩ := engWord_fields 9 c.toNat a.toNat imm.toNat (by decide) c.isLt a.isLt imm.isLt
  refine engine _ _ rfl h8 (fun h => ?_)
  simp only [Instr.wf, immOk, immWideOk, decide_eq_true_eq] at h
  have e1 := engImm_engWord 9 c.toNat a.toNat imm.toNat (by decide) c.isLt a.isLt (by omega)
  have e2 := immIllegal_engWord 9 c.toNat a.toNat imm.toNat (by decide) c.isLt a.isLt (by omega)
  simp [decodeEng, engIllegal, h1, h2, h3, h4, h7, e1, e2]

theorem chi (c : BitVec 5) (a : BitVec 4) (imm : BitVec 10) : Statement (.chi c a imm) := by
  obtain ⟨h1, h2, h3, h4, h5, h6, h7, h8⟩ := engWord_fields 10 c.toNat a.toNat imm.toNat (by decide) c.isLt a.isLt imm.isLt
  refine engine _ _ rfl h8 (fun h => ?_)
  simp only [Instr.wf, immOk, immWideOk, decide_eq_true_eq] at h
  have e1 := engImm_engWord 10 c.toNat a.toNat imm.toNat (by decide) c.isLt a.isLt (by omega)
  have e2 := immIllegal_engWord 10 c.toNat a.toNat imm.toNat (by decide) c.isLt a.isLt (by omega)
  simp [decodeEng, engIllegal, h1, h2, h3, h4, h7, e1, e2]

theorem phr (p : BitVec 5) (a : BitVec 4) (k : BitVec 1) (m : BitVec 2) : Statement (.phr p a k m) := by
  obtain ⟨h1, h2, h3, h4, h5, h6, h7, h8⟩ := engWord_fields 11 p.toNat a.toNat (k.toNat * 128 + m.toNat) (by decide) p.isLt a.isLt (by have := k.isLt; have := m.isLt; omega)
  refine engine _ _ rfl h8 (fun h => ?_)
  simp only [Instr.wf, phaserOk, modeOk, Bool.and_eq_true, Bool.or_eq_true, beq_iff_eq, bne_iff_ne] at h
  have e1 := engImm_engWord 11 p.toNat a.toNat (k.toNat * 128 + m.toNat) (by decide) p.isLt a.isLt (by have := k.isLt; have := m.isLt; omega)
  have e2 := immIllegal_engWord 11 p.toNat a.toNat (k.toNat * 128 + m.toNat) (by decide) p.isLt a.isLt (by have := k.isLt; have := m.isLt; omega)
  have hk : k = 0 ∨ k = 1 := bit1_cases k
  have hm : m = 1 ∨ m = 2 ∨ m = 3 := mode_cases m h.2
  obtain ⟨hp, -⟩ := h
  rcases hk with rfl | rfl <;> rcases hm with rfl | rfl | rfl <;> simp_all [decodeEng, engIllegal]

theorem phd (p : BitVec 5) (a : BitVec 4) (k : BitVec 1) : Statement (.phd p a k) := by
  obtain ⟨h1, h2, h3, h4, h5, h6, h7, h8⟩ := engWord_fields 12 p.toNat a.toNat (k.toNat * 128) (by decide) p.isLt a.isLt (by have := k.isLt; omega)
  refine engine _ _ rfl h8 (fun h => ?_)
  simp only [Instr.wf, phaserOk, Bool.or_eq_true, beq_iff_eq] at h
  have e1 := engImm_engWord 12 p.toNat a.toNat (k.toNat * 128) (by decide) p.isLt a.isLt (by have := k.isLt; omega)
  have e2 := immIllegal_engWord 12 p.toNat a.toNat (k.toNat * 128) (by decide) p.isLt a.isLt (by have := k.isLt; omega)
  have hk : k = 0 ∨ k = 1 := bit1_cases k
  rcases hk with rfl | rfl <;> simp_all [decodeEng, engIllegal]

theorem phs (p : BitVec 5) (a : BitVec 4) (k : BitVec 1) : Statement (.phs p a k) := by
  obtain ⟨h1, h2, h3, h4, h5, h6, h7, h8⟩ := engWord_fields 13 p.toNat a.toNat (k.toNat * 128) (by decide) p.isLt a.isLt (by have := k.isLt; omega)
  refine engine _ _ rfl h8 (fun h => ?_)
  simp only [Instr.wf, phaserOk, Bool.or_eq_true, beq_iff_eq] at h
  have e1 := engImm_engWord 13 p.toNat a.toNat (k.toNat * 128) (by decide) p.isLt a.isLt (by have := k.isLt; omega)
  have e2 := immIllegal_engWord 13 p.toNat a.toNat (k.toNat * 128) (by decide) p.isLt a.isLt (by have := k.isLt; omega)
  have hk : k = 0 ∨ k = 1 := bit1_cases k
  rcases hk with rfl | rfl <;> simp_all [decodeEng, engIllegal]

theorem phb (p : BitVec 5) (a : BitVec 4) (k : BitVec 1) : Statement (.phb p a k) := by
  obtain ⟨h1, h2, h3, h4, h5, h6, h7, h8⟩ := engWord_fields 14 p.toNat a.toNat (k.toNat * 128) (by decide) p.isLt a.isLt (by have := k.isLt; omega)
  refine engine _ _ rfl h8 (fun h => ?_)
  simp only [Instr.wf, phaserOk, Bool.or_eq_true, beq_iff_eq] at h
  have e1 := engImm_engWord 14 p.toNat a.toNat (k.toNat * 128) (by decide) p.isLt a.isLt (by have := k.isLt; omega)
  have e2 := immIllegal_engWord 14 p.toNat a.toNat (k.toNat * 128) (by decide) p.isLt a.isLt (by have := k.isLt; omega)
  have hk : k = 0 ∨ k = 1 := bit1_cases k
  rcases hk with rfl | rfl <;> simp_all [decodeEng, engIllegal]

theorem phw (p : BitVec 5) (a : BitVec 4) (k : BitVec 1) : Statement (.phw p a k) := by
  obtain ⟨h1, h2, h3, h4, h5, h6, h7, h8⟩ := engWord_fields 15 p.toNat a.toNat (k.toNat * 128) (by decide) p.isLt a.isLt (by have := k.isLt; omega)
  refine engine _ _ rfl h8 (fun h => ?_)
  simp only [Instr.wf, phaserOk, Bool.or_eq_true, beq_iff_eq] at h
  have e1 := engImm_engWord 15 p.toNat a.toNat (k.toNat * 128) (by decide) p.isLt a.isLt (by have := k.isLt; omega)
  have e2 := immIllegal_engWord 15 p.toNat a.toNat (k.toNat * 128) (by decide) p.isLt a.isLt (by have := k.isLt; omega)
  have hk : k = 0 ∨ k = 1 := bit1_cases k
  rcases hk with rfl | rfl <;> simp_all [decodeEng, engIllegal]

theorem ple (a : BitVec 4) (imm : BitVec 10) : Statement (.ple a imm) := by
  obtain ⟨h1, h2, h3, h4, h5, h6, h7, h8⟩ := engWord_fields 16 0 a.toNat imm.toNat (by decide) (by decide) a.isLt imm.isLt
  refine engine _ _ rfl h8 (fun h => ?_)
  simp only [Instr.wf, immOk, immWideOk, decide_eq_true_eq] at h
  have e1 := engImm_engWord 16 0 a.toNat imm.toNat (by decide) (by decide) a.isLt (by omega)
  have e2 := immIllegal_engWord 16 0 a.toNat imm.toNat (by decide) (by decide) a.isLt (by omega)
  have h9 : ¬ 255 < imm.toNat := by omega
  simp [decodeEng, engIllegal, h1, h2, h3, h4, e1, e2, h9]

theorem plu (a : BitVec 4) (imm : BitVec 10) : Statement (.plu a imm) := by
  obtain ⟨h1, h2, h3, h4, h5, h6, h7, h8⟩ := engWord_fields 17 0 a.toNat imm.toNat (by decide) (by decide) a.isLt imm.isLt
  refine engine _ _ rfl h8 (fun h => ?_)
  simp only [Instr.wf, immOk, immWideOk, decide_eq_true_eq] at h
  have e1 := engImm_engWord 17 0 a.toNat imm.toNat (by decide) (by decide) a.isLt (by omega)
  have e2 := immIllegal_engWord 17 0 a.toNat imm.toNat (by decide) (by decide) a.isLt (by omega)
  have h9 : ¬ 255 < imm.toNat := by omega
  simp [decodeEng, engIllegal, h1, h2, h3, h4, e1, e2, h9]

theorem ckpStart (a : BitVec 4) : Statement (.ckpStart a) := by
  obtain ⟨h1, h2, h3, h4, h5, h6, h7, h8⟩ := engWord_fields 18 0 a.toNat 0 (by decide) (by decide) a.isLt (by decide)
  refine engine _ _ rfl h8 (fun h => ?_)
  have e1 := engImm_engWord 18 0 a.toNat 0 (by decide) (by decide) a.isLt (by decide)
  have e2 := immIllegal_engWord 18 0 a.toNat 0 (by decide) (by decide) a.isLt (by decide)
  simp [decodeEng, engIllegal, h1, h2, h3, h4, h7, e1, e2]

theorem ckpStop (a : BitVec 4) : Statement (.ckpStop a) := by
  obtain ⟨h1, h2, h3, h4, h5, h6, h7, h8⟩ := engWord_fields 18 0 a.toNat 1 (by decide) (by decide) a.isLt (by decide)
  refine engine _ _ rfl h8 (fun h => ?_)
  have e1 := engImm_engWord 18 0 a.toNat 1 (by decide) (by decide) a.isLt (by decide)
  have e2 := immIllegal_engWord 18 0 a.toNat 1 (by decide) (by decide) a.isLt (by decide)
  simp [decodeEng, engIllegal, h1, h2, h3, h4, h7, e1, e2]

theorem ckpQuiesce (a : BitVec 4) : Statement (.ckpQuiesce a) := by
  obtain ⟨h1, h2, h3, h4, h5, h6, h7, h8⟩ := engWord_fields 18 0 a.toNat 2 (by decide) (by decide) a.isLt (by decide)
  refine engine _ _ rfl h8 (fun h => ?_)
  have e1 := engImm_engWord 18 0 a.toNat 2 (by decide) (by decide) a.isLt (by decide)
  have e2 := immIllegal_engWord 18 0 a.toNat 2 (by decide) (by decide) a.isLt (by decide)
  simp [decodeEng, engIllegal, h1, h2, h3, h4, h7, e1, e2]

theorem ckpStatus (a : BitVec 4) : Statement (.ckpStatus a) := by
  obtain ⟨h1, h2, h3, h4, h5, h6, h7, h8⟩ := engWord_fields 18 0 a.toNat 3 (by decide) (by decide) a.isLt (by decide)
  refine engine _ _ rfl h8 (fun h => ?_)
  have e1 := engImm_engWord 18 0 a.toNat 3 (by decide) (by decide) a.isLt (by decide)
  have e2 := immIllegal_engWord 18 0 a.toNat 3 (by decide) (by decide) a.isLt (by decide)
  simp [decodeEng, engIllegal, h1, h2, h3, h4, h7, e1, e2]

theorem engineOpIssue (core : Nat) : Statement (.engineOpIssue core) := no_bundle _ rfl

theorem channelOccupancyFall (core : Nat) : Statement (.channelOccupancyFall core) := no_bundle _ rfl

theorem cpeStart (tid : Nat) : Statement (.cpeStart tid) := no_bundle _ rfl

theorem copyPiece (tid : Nat) : Statement (.copyPiece tid) := no_bundle _ rfl

theorem transferComplete (tid : Nat) : Statement (.transferComplete tid) := no_bundle _ rfl

theorem userInterruptTaken (core : Nat) (ctx : Nat) : Statement (.userInterruptTaken core ctx) := no_bundle _ rfl

theorem phaseComplete (ph : Nat) : Statement (.phaseComplete ph) := no_bundle _ rfl

theorem ringPlacement (tid : Nat) : Statement (.ringPlacement tid) := no_bundle _ rfl

theorem recvTake (tid : Nat) : Statement (.recvTake tid) := no_bundle _ rfl

theorem encoderCommandStart (clu : Nat) : Statement (.encoderCommandStart clu) := no_bundle _ rfl

theorem encoderCommandDrop (clu : Nat) : Statement (.encoderCommandDrop clu) := no_bundle _ rfl

theorem promoteRequestArrival (core : Nat) : Statement (.promoteRequestArrival core) := no_bundle _ rfl

theorem drainComplete (core : Nat) : Statement (.drainComplete core) := no_bundle _ rfl

theorem promoteAckArrival (core : Nat) : Statement (.promoteAckArrival core) := no_bundle _ rfl

theorem promoteLost (core : Nat) : Statement (.promoteLost core) := no_bundle _ rfl

theorem saElementStepArrival (k : Nat) : Statement (.saElementStepArrival k) := no_bundle _ rfl

theorem space2StoreArrival (k : Nat) : Statement (.space2StoreArrival k) := no_bundle _ rfl

theorem coreGroupEnd (core : Nat) : Statement (.coreGroupEnd core) := no_bundle _ rfl

theorem queueNotify (die : Nat) (q : Nat) (size : Nat) (off : Nat) (val : Dw) : Statement (.queueNotify die q size off val) := no_bundle _ rfl

theorem packetRead (die : Nat) (q : Nat) : Statement (.packetRead die q) := no_bundle _ rfl

theorem launchPlace (l : Nat) : Statement (.launchPlace l) := no_bundle _ rfl

theorem launchComplete (l : Nat) : Statement (.launchComplete l) := no_bundle _ rfl

theorem barrierPoll (die : Nat) (q : Nat) : Statement (.barrierPoll die q) := no_bundle _ rfl

theorem preemption (l : Nat) : Statement (.preemption l) := no_bundle _ rfl

theorem resumption (l : Nat) : Statement (.resumption l) := no_bundle _ rfl

theorem quantumExpiry (l : Nat) : Statement (.quantumExpiry l) := no_bundle _ rfl

theorem energyBudgetExceeded (l : Nat) : Statement (.energyBudgetExceeded l) := no_bundle _ rfl

theorem hostAccess (r : HostReq) : Statement (.hostAccess r) := no_bundle _ rfl

theorem xinvAll : Statement (.xinvAll) := no_bundle _ rfl

theorem xinvOwner (owner : Byte) : Statement (.xinvOwner owner) := no_bundle _ rfl

theorem xinvPage (owner : Byte) (vpn : Nat) : Statement (.xinvPage owner vpn) := no_bundle _ rfl

theorem xinvComplete : Statement (.xinvComplete) := no_bundle _ rfl

theorem ckpPage : Statement (.ckpPage) := no_bundle _ rfl

theorem ckpPassEnd : Statement (.ckpPassEnd) := no_bundle _ rfl

theorem paircfgWrite (core : Nat) (val : Dw) : Statement (.paircfgWrite core val) := no_bundle _ rfl

theorem cmapWrite (clu : Nat) (hi : Bool) (val : Dw) : Statement (.cmapWrite clu hi val) := no_bundle _ rfl

theorem testHold (clu : Nat) (val : Dw) : Statement (.testHold clu val) := no_bundle _ rfl

theorem testStart (clu : Nat) (val : Dw) : Statement (.testStart clu val) := no_bundle _ rfl

theorem testAbort (clu : Nat) (val : Dw) : Statement (.testAbort clu val) := no_bundle _ rfl

theorem testRelease (clu : Nat) (val : Dw) : Statement (.testRelease clu val) := no_bundle _ rfl

theorem testDrainComplete (clu : Nat) : Statement (.testDrainComplete clu) := no_bundle _ rfl

theorem testPatternComplete (clu : Nat) : Statement (.testPatternComplete clu) := no_bundle _ rfl

theorem configImageRewrite (clu : Nat) : Statement (.configImageRewrite clu) := no_bundle _ rfl

theorem eccCorrect (die : Nat) : Statement (.eccCorrect die) := no_bundle _ rfl

theorem poisonMark (p : PoisonPlace) : Statement (.poisonMark p) := no_bundle _ rfl

theorem scrubRow (die : Nat) (granules : List (Nat × ScrubResult)) : Statement (.scrubRow die granules) := no_bundle _ rfl

theorem heartbeatSend (die : Nat) : Statement (.heartbeatSend die) := no_bundle _ rfl

theorem heartbeatCheck (die : Nat) : Statement (.heartbeatCheck die) := no_bundle _ rfl

theorem lostDieAccessTimeout (core : Nat) : Statement (.lostDieAccessTimeout core) := no_bundle _ rfl

theorem supplySag (die : Nat) (isl : Nat) : Statement (.supplySag die isl) := no_bundle _ rfl

theorem overCurrent (die : Nat) (isl : Nat) : Statement (.overCurrent die isl) := no_bundle _ rfl

theorem overCurrentKill (die : Nat) : Statement (.overCurrentKill die) := no_bundle _ rfl

theorem softTrip (die : Nat) (isl : Nat) : Statement (.softTrip die isl) := no_bundle _ rfl

theorem ceilStepDown (die : Nat) (isl : Nat) : Statement (.ceilStepDown die isl) := no_bundle _ rfl

theorem ceilStepUp (die : Nat) (isl : Nat) : Statement (.ceilStepUp die isl) := no_bundle _ rfl

theorem hardTrip (site : Option (Nat × Nat)) : Statement (.hardTrip site) := no_bundle _ rfl

theorem powerOffTrip : Statement (.powerOffTrip) := no_bundle _ rfl

theorem suspend (domain : Bool) : Statement (.suspend domain) := no_bundle _ rfl

theorem suspendComplete : Statement (.suspendComplete) := no_bundle _ rfl

theorem resume (domain : Bool) : Statement (.resume domain) := no_bundle _ rfl

theorem resumeComplete : Statement (.resumeComplete) := no_bundle _ rfl

theorem deviceBoot : Statement (.deviceBoot) := no_bundle _ rfl

theorem functionReady (die : Nat) (k : Nat) : Statement (.functionReady die k) := no_bundle _ rfl

theorem pairReset (pair : Nat) : Statement (.pairReset pair) := no_bundle _ rfl

theorem orbitMessageArrival (m : OrbitMsg) : Statement (.orbitMessageArrival m) := no_bundle _ rfl

theorem suspendedDeviceAccessTimeout (core : Nat) : Statement (.suspendedDeviceAccessTimeout core) := no_bundle _ rfl

theorem dieStopsAnswering (die : Nat) : Statement (.dieStopsAnswering die) := no_bundle _ rfl

theorem sagEpisodeEnd (die : Nat) (isl : Nat) : Statement (.sagEpisodeEnd die isl) := no_bundle _ rfl

theorem overCurrentClears (die : Nat) (isl : Nat) : Statement (.overCurrentClears die isl) := no_bundle _ rfl

theorem softTripRecovery (die : Nat) (isl : Nat) : Statement (.softTripRecovery die isl) := no_bundle _ rfl

theorem ceilWrite (core : Nat) (val : Dw) : Statement (.ceilWrite core val) := no_bundle _ rfl

end Sys2Proof.Laws.Encoding
end

