-- ==== Sys2Proof/Tests/Slice0.lean ====
section
/-! SUPPORT. Tests of the model: words decode to their instructions, ill-formed terms are refused, and the hypotheses of every statement
are met by a small state. -/

open Sys2Proof Sys2Proof.Machine

namespace Sys2Proof.Tests

set_option Elab.async false

theorem test_decode_moves : ([
    (0x141441, .registerMove ⟨0, 1, 0x105⟩ 0x41), (0x6BC240, .portAWrite ⟨1, 2, 0x2F0⟩ 2), (0x712A61, .portBWrite ⟨1, 3, 0x4A⟩ 3),
    (0x020682, .portDOverride ⟨0, 0, 0x81⟩ 4), (0x128AA3, .portCfgWrite ⟨0, 1, 0xA2⟩ 5)] : List (Nat × Instr)).all
    (fun e => decide ((decodeMove 0 e.1).toOption = some e.2)) = true := by decide +kernel

theorem test_decode_sx : ([
    (0x600604, .sxAdd ⟨0, 1, 2, 0x1⟩ 0), (0xF41625, .sxSub ⟨1, 1, 3, 0x105⟩ 1), (0x0BC206, .sxAnd ⟨0, 0, 0, 0x2F0⟩ 0),
    (0x912A27, .sxOr ⟨1, 0, 1, 0x4A⟩ 1), (0x620608, .sxXor ⟨0, 1, 2, 0x81⟩ 0), (0xF28A29, .sxShl ⟨1, 1, 3, 0xA2⟩ 1),
    (0x00060A, .sxShr ⟨0, 0, 0, 0x1⟩ 0), (0x94162B, .sxSar ⟨1, 0, 1, 0x105⟩ 1), (0x6BC20C, .sxMin ⟨0, 1, 2, 0x2F0⟩ 0),
    (0xF12A2D, .sxMax ⟨1, 1, 3, 0x4A⟩ 1), (0x02060E, .sxMinu ⟨0, 0, 0, 0x81⟩ 0), (0x928A2F, .sxMaxu ⟨1, 0, 1, 0xA2⟩ 1),
    (0x600610, .sxCeq ⟨0, 1, 2, 0x1⟩ 0), (0xF41631, .sxCne ⟨1, 1, 3, 0x105⟩ 1), (0x0BC212, .sxClt ⟨0, 0, 0, 0x2F0⟩ 0),
    (0x912A33, .sxCltu ⟨1, 0, 1, 0x4A⟩ 1), (0x620614, .sxCle ⟨0, 1, 2, 0x81⟩ 0), (0xF28A35, .sxCleu ⟨1, 1, 3, 0xA2⟩ 1),
    (0x000616, .sxSel ⟨0, 0, 0, 0x1⟩ 0), (0x941637, .sxClz ⟨1, 0, 1, 0x105⟩ 1), (0x6BC218, .sxPopc ⟨0, 1, 2, 0x2F0⟩ 0),
    (0xF12A39, .sxSext ⟨1, 1, 3, 0x4A⟩ 1), (0x02061A, .sxAdds ⟨0, 0, 0, 0x81⟩ 0), (0x928A3B, .sxBfx ⟨1, 0, 1, 0xA2⟩ 1),
    (0x60061C, .sxBfi ⟨0, 1, 2, 0x1⟩ 0), (0xF4163D, .sxPass ⟨1, 1, 3, 0x105⟩ 1), (0x0BC21E, .sxPack ⟨0, 0, 0, 0x2F0⟩ 0)] : List (Nat × Instr)).all
    (fun e => decide ((decodeMove 0 e.1).toOption = some e.2)) = true := by decide +kernel

theorem test_decode_sm : ([
    (0x912A44, .smMul ⟨1, 0, 1, 0x4A⟩), (0x620645, .smMulh ⟨0, 1, 2, 0x81⟩), (0xF28A46, .smMulhu ⟨1, 1, 3, 0xA2⟩),
    (0x000647, .smMadd ⟨0, 0, 0, 0x1⟩), (0x941648, .smDiv ⟨1, 0, 1, 0x105⟩), (0x6BC249, .smDivu ⟨0, 1, 2, 0x2F0⟩),
    (0xF12A4A, .smRem ⟨1, 1, 3, 0x4A⟩), (0x02064B, .smRemu ⟨0, 0, 0, 0x81⟩)] : List (Nat × Instr)).all
    (fun e => decide ((decodeMove 0 e.1).toOption = some e.2)) = true := by decide +kernel

theorem test_decode_ct : ([
    (0x928A64, .jmp ⟨1, 0, 1, 0xA2⟩), (0x600665, .br ⟨0, 1, 2, 0x1⟩), (0xF41666, .bnz ⟨1, 1, 3, 0x105⟩), (0x0BC267, .bz ⟨0, 0, 0, 0x2F0⟩),
    (0x912A68, .call ⟨1, 0, 1, 0x4A⟩), (0x620669, .ret ⟨0, 1, 2, 0x81⟩), (0xF28A6A, .loop ⟨1, 1, 3, 0xA2⟩),
    (0x00066B, .mloop ⟨0, 0, 0, 0x1⟩), (0x94166C, .lbrk ⟨1, 0, 1, 0x105⟩), (0x6BC26D, .rept ⟨0, 1, 2, 0x2F0⟩),
    (0xF12A6E, .trap ⟨1, 1, 3, 0x4A⟩), (0x02066F, .eret ⟨0, 0, 0, 0x81⟩), (0x928A70, .wait ⟨1, 0, 1, 0xA2⟩),
    (0x600671, .warm ⟨0, 1, 2, 0x1⟩), (0xF41672, .sysr ⟨1, 1, 3, 0x105⟩), (0x0BC273, .sysw ⟨0, 0, 0, 0x2F0⟩),
    (0x912A74, .halt ⟨1, 0, 1, 0x4A⟩)] : List (Nat × Instr)).all
    (fun e => decide ((decodeMove 0 e.1).toOption = some e.2)) = true := by decide +kernel

theorem test_decode_ls : ([
    (0x620684, .ldb ⟨0, 1, 2, 0x81⟩), (0xF28A85, .ldbu ⟨1, 1, 3, 0xA2⟩), (0x000686, .ldh ⟨0, 0, 0, 0x1⟩),
    (0x941687, .ldhu ⟨1, 0, 1, 0x105⟩), (0x6BC288, .ldw ⟨0, 1, 2, 0x2F0⟩), (0xF12A89, .ldwu ⟨1, 1, 3, 0x4A⟩),
    (0x02068A, .ldd ⟨0, 0, 0, 0x81⟩), (0x928A8B, .stb ⟨1, 0, 1, 0xA2⟩), (0x60068C, .sth ⟨0, 1, 2, 0x1⟩),
    (0xF4168D, .stw ⟨1, 1, 3, 0x105⟩), (0x0BC28E, .std ⟨0, 0, 0, 0x2F0⟩), (0x912A8F, .fence ⟨1, 0, 1, 0x4A⟩),
    (0x620690, .pref ⟨0, 1, 2, 0x81⟩), (0xF28A91, .wbl ⟨1, 1, 3, 0xA2⟩), (0x000692, .invl ⟨0, 0, 0, 0x1⟩)] : List (Nat × Instr)).all
    (fun e => decide ((decodeMove 0 e.1).toOption = some e.2)) = true := by decide +kernel

theorem test_decode_lv : ([
    (0x9416A4, .vld ⟨1, 0, 1, 0x105⟩), (0x6BC2A5, .vst ⟨0, 1, 2, 0x2F0⟩), (0xF12AA6, .vlds ⟨1, 1, 3, 0x4A⟩),
    (0x0206A7, .vsts ⟨0, 0, 0, 0x81⟩), (0x928AA8, .vgth ⟨1, 0, 1, 0xA2⟩), (0x6006A9, .vsct ⟨0, 1, 2, 0x1⟩),
    (0xF416AA, .vldb ⟨1, 1, 3, 0x105⟩), (0x0BC2AB, .vldm ⟨0, 0, 0, 0x2F0⟩), (0x912AAC, .vstm ⟨1, 0, 1, 0x4A⟩),
    (0x6206AD, .vpref ⟨0, 1, 2, 0x81⟩)] : List (Nat × Instr)).all
    (fun e => decide ((decodeMove 0 e.1).toOption = some e.2)) = true := by decide +kernel

theorem test_decode_at : ([
    (0xF28AC4, .aadd ⟨1, 1, 3, 0xA2⟩), (0x0006C5, .aincb ⟨0, 0, 0, 0x1⟩), (0x9416C6, .acas ⟨1, 0, 1, 0x105⟩),
    (0x6BC2C7, .aswp ⟨0, 1, 2, 0x2F0⟩), (0xF12AC8, .aand ⟨1, 1, 3, 0x4A⟩), (0x0206C9, .aor ⟨0, 0, 0, 0x81⟩),
    (0x928ACA, .axor ⟨1, 0, 1, 0xA2⟩), (0x6006CB, .amin ⟨0, 1, 2, 0x1⟩), (0xF416CC, .amax ⟨1, 1, 3, 0x105⟩),
    (0x0BC2CD, .aminu ⟨0, 0, 0, 0x2F0⟩), (0x912ACE, .amaxu ⟨1, 0, 1, 0x4A⟩), (0x6206CF, .afadd ⟨0, 1, 2, 0x81⟩),
    (0xF28AD0, .afmin ⟨1, 1, 3, 0xA2⟩), (0x0006D1, .afmax ⟨0, 0, 0, 0x1⟩), (0x9416D2, .apcas ⟨1, 0, 1, 0x105⟩),
    (0x6BC2D3, .apld ⟨0, 1, 2, 0x2F0⟩)] : List (Nat × Instr)).all
    (fun e => decide ((decodeMove 0 e.1).toOption = some e.2)) = true := by decide +kernel

theorem test_decode_va : ([
    (0xF12B04, .vaAdd ⟨1, 1, 3, 0x4A⟩ 1), (0x0206E5, .vaSub ⟨0, 0, 0, 0x81⟩ 0), (0x928B06, .vaMul ⟨1, 0, 1, 0xA2⟩ 1),
    (0x6006E7, .vaFma ⟨0, 1, 2, 0x1⟩ 0), (0xF41708, .vaFms ⟨1, 1, 3, 0x105⟩ 1), (0x0BC2E9, .vaMin ⟨0, 0, 0, 0x2F0⟩ 0),
    (0x912B0A, .vaMax ⟨1, 0, 1, 0x4A⟩ 1), (0x6206EB, .vaAbs ⟨0, 1, 2, 0x81⟩ 0), (0xF28B0C, .vaNeg ⟨1, 1, 3, 0xA2⟩ 1),
    (0x0006ED, .vaCeq ⟨0, 0, 0, 0x1⟩ 0), (0x94170E, .vaClt ⟨1, 0, 1, 0x105⟩ 1), (0x6BC2EF, .vaCle ⟨0, 1, 2, 0x2F0⟩ 0),
    (0xF12B10, .vaCun ⟨1, 1, 3, 0x4A⟩ 1), (0x0206F1, .vaSel ⟨0, 0, 0, 0x81⟩ 0), (0x928B12, .vaCvt ⟨1, 0, 1, 0xA2⟩ 1),
    (0x6006F3, .vaAnd ⟨0, 1, 2, 0x1⟩ 0), (0xF41714, .vaOr ⟨1, 1, 3, 0x105⟩ 1), (0x0BC2F5, .vaXor ⟨0, 0, 0, 0x2F0⟩ 0),
    (0x912B16, .vaShl ⟨1, 0, 1, 0x4A⟩ 1), (0x6206F7, .vaShr ⟨0, 1, 2, 0x81⟩ 0), (0xF28B18, .vaSar ⟨1, 1, 3, 0xA2⟩ 1),
    (0x0006F9, .vaScl ⟨0, 0, 0, 0x1⟩ 0), (0x94171A, .vaClmp ⟨1, 0, 1, 0x105⟩ 1), (0x6BC2FB, .vaRnd ⟨0, 1, 2, 0x2F0⟩ 0),
    (0xF12B1C, .vaQnt ⟨1, 1, 3, 0x4A⟩ 1), (0x0206FD, .vaDqn ⟨0, 0, 0, 0x81⟩ 0), (0x928B1E, .vaMov ⟨1, 0, 1, 0xA2⟩ 1)] : List (Nat × Instr)).all
    (fun e => decide ((decodeMove 0 e.1).toOption = some e.2)) = true := by decide +kernel

theorem test_decode_vf : ([
    (0x600724, .rsq ⟨0, 1, 2, 0x1⟩), (0xF41725, .rcp ⟨1, 1, 3, 0x105⟩), (0x0BC326, .sqrt ⟨0, 0, 0, 0x2F0⟩),
    (0x912B27, .exp2 ⟨1, 0, 1, 0x4A⟩), (0x620728, .log2 ⟨0, 1, 2, 0x81⟩), (0xF28B29, .exp ⟨1, 1, 3, 0xA2⟩),
    (0x00072A, .tanh ⟨0, 0, 0, 0x1⟩), (0x94172B, .sigm ⟨1, 0, 1, 0x105⟩), (0x6BC32C, .silu ⟨0, 1, 2, 0x2F0⟩)] : List (Nat × Instr)).all
    (fun e => decide ((decodeMove 0 e.1).toOption = some e.2)) = true := by decide +kernel

theorem test_decode_vx : ([
    (0xF12B44, .rsum ⟨1, 1, 3, 0x4A⟩), (0x020745, .rmax ⟨0, 0, 0, 0x81⟩), (0x928B46, .rmin ⟨1, 0, 1, 0xA2⟩),
    (0x600747, .bcst ⟨0, 1, 2, 0x1⟩), (0xF41748, .perm ⟨1, 1, 3, 0x105⟩), (0x0BC349, .gxch ⟨0, 0, 0, 0x2F0⟩),
    (0x912B4A, .rot ⟨1, 0, 1, 0x4A⟩), (0x62074B, .scan ⟨0, 1, 2, 0x81⟩), (0xF28B4C, .cmpr ⟨1, 1, 3, 0xA2⟩),
    (0x00074D, .expd ⟨0, 0, 0, 0x1⟩), (0x94174E, .popm ⟨1, 0, 1, 0x105⟩), (0x6BC34F, .ffs ⟨0, 1, 2, 0x2F0⟩),
    (0xF12B50, .vtos ⟨1, 1, 3, 0x4A⟩), (0x020751, .stov ⟨0, 0, 0, 0x81⟩)] : List (Nat × Instr)).all
    (fun e => decide ((decodeMove 0 e.1).toOption = some e.2)) = true := by decide +kernel

theorem test_decode_sa : ([
    (0x928B64, .sadd ⟨1, 0, 1, 0xA2⟩), (0x600765, .saddc ⟨0, 1, 2, 0x1⟩), (0xF41766, .srdn ⟨1, 1, 3, 0x105⟩),
    (0x0BC367, .shdr ⟨0, 0, 0, 0x2F0⟩), (0x912B68, .sclr ⟨1, 0, 1, 0x4A⟩), (0x620769, .sevt ⟨0, 1, 2, 0x81⟩),
    (0xF28B6A, .sldr ⟨1, 1, 3, 0xA2⟩), (0x00076B, .sstt ⟨0, 0, 0, 0x1⟩)] : List (Nat × Instr)).all
    (fun e => decide ((decodeMove 0 e.1).toOption = some e.2)) = true := by decide +kernel

theorem test_decode_matrix : ([
    (0x089000, .mcfg 9), (0x159E15, .mma 5 9 14 21), (0x1D9E11, .mmaz 5 9 14 17), (0x259E12, .mmar 5 9 14 18),
    (0x2D9B13, .mmap 5 9 11 19), (0x359014, .accrd 5 9 20), (0x3D9015, .accwr 5 9 21), (0x450000, .acccl 5), (0x4E9012, .pldef 6 9 18),
    (0x50C500, .mmrk 197)] : List (Nat × Instr)).all
    (fun e => decide ((decodeMat e.1).toOption = some e.2)) = true := by decide +kernel

theorem test_decode_engine : ([
    (0x0D64AE, .cpy 21 9 174), (0x1564AF, .cpn 21 9 175), (0x1D64B0, .cpz 21 9 176), (0x2564B1, .cpc 21 9 177), (0x2D64B2, .cpk 21 9 178),
    (0x3564B3, .cpe 21 9 179), (0x3D64B4, .send 21 9 180), (0x4564B5, .recv 21 9 181), (0x4D64B6, .chw 21 9 182),
    (0x5564B7, .chi 21 9 183), (0x58E403, .phr 3 9 0 3), (0x60E400, .phd 3 9 0), (0x68E400, .phs 3 9 0), (0x70E400, .phb 3 9 0),
    (0x78E400, .phw 3 9 0), (0x8024BD, .ple 9 189), (0x8824BE, .plu 9 190), (0x902400, .ckpStart 9), (0x902401, .ckpStop 9),
    (0x902402, .ckpQuiesce 9), (0x902403, .ckpStatus 9)] : List (Nat × Instr)).all
    (fun e => decide ((decodeEng 0 0 e.1).toOption = some e.2)) = true := by decide +kernel


/-! ### Small states for the witnesses -/

/-- A head that reads s1 with nothing else: W 0, guard g0. -/
def h1 : MoveHead := { w := 0, inv := 0, grd := 0, src := 1 }
def p1 : PlainHead := { inv := 0, grd := 0, src := 1 }

/-- Core 0 runs context 0 of a launch that the model's loader places. -/
def base : State := State.reset.loaded

/-- The base state with s1 = t, s2 to s4 and the ports of unit u as given. -/
def port (u : Nat) (t a b : Nat) (cfg : Nat) : State :=
  base.modCtx 0 0 (fun c =>
    { c with bank := { c.bank with s := [(1, BitVec.ofNat 64 t)] }
             ports := [(u, { a := BitVec.ofNat 4096 a, b := BitVec.ofNat 4096 b, cfg := BitVec.ofNat 64 cfg })] })

theorem test_base_free : base.free 0 0 = true := by decide +kernel

theorem witness_ScalarResults : ∀ i ∈ [Instr.sxAdd h1 0, .sxSub h1 0, .sxAnd h1 0, .sxOr h1 0, .sxXor h1 0, .sxShl h1 0, .sxShr h1 0, .sxSar h1 0,
      .sxMin h1 0, .sxMax h1 0, .sxMinu h1 0, .sxMaxu h1 0, .sxCeq h1 1, .sxCne h1 1, .sxClt h1 1, .sxCltu h1 1, .sxCle h1 1, .sxCleu h1 1,
      .sxSel h1 1, .sxClz h1 1, .sxPopc h1 1, .sxSext h1 1, .sxAdds h1 1, .sxBfx h1 1, .sxBfi h1 1, .sxPass h1 1, .sxPack h1 1],
    (match Claims.sx i with
      | some (p, m, u, _) => base.mayTrigger 0 0 m && decide ((base.trigger 0 0 u.toNat p m).cfg = 0)
      | none => false) = true := by decide +kernel

theorem witness_MultiplierResults : ∀ i ∈ [Instr.smMul h1, .smMulh h1, .smMulhu h1, .smMadd h1, .smDiv h1, .smDivu h1, .smRem h1, .smRemu h1],
    (match Claims.sm i with
      | some (p, m, _, _) => base.mayTrigger 0 0 m && decide ((base.trigger 0 0 2 p m).cfg = 0)
      | none => false) = true := by decide +kernel

theorem witness_Transfers : ∀ i ∈ [Instr.jmp h1, .br h1, .bnz h1, .bz h1, .ret h1],
    (match Claims.transfer i with
      | some (p, m, _) => base.mayTrigger 0 0 m && decide ((base.trigger 0 0 3 p m).cfg = 0)
      | none => false) = true := by decide +kernel

theorem witness_Transfers_call : base.mayTrigger 0 0 h1 = true ∧ (base.trigger 0 0 3 8 h1).cfg = 0 := by decide +kernel

/-- loop on its last level. -/
theorem witness_LoopAndPrefix_loop :
    let s := port 3 5 2 0 0
    s.mayTrigger 0 0 h1 = true ∧ (s.trigger 0 0 3 10 h1).cfg = 0 ∧ (s.trigger 0 0 3 10 h1).sa.toNat % 4 ≠ 3 := by decide +kernel
/-- mloop with the least and with larger fields. -/
theorem witness_LoopAndPrefix_mloop : ∀ a ∈ [0x0101, 0x12408],
    let s := port 3 5 a 0x0302 0
    s.mayTrigger 0 0 h1 = true ∧ (s.trigger 0 0 3 11 h1).cfg = 0
      ∧ mloopOk (s.trigger 0 0 3 11 h1).ts (s.trigger 0 0 3 11 h1).sa (s.trigger 0 0 3 11 h1).sb = true := by decide +kernel
/-- rept with the least and the greatest count; lbrk has the same premises. -/
theorem witness_LoopAndPrefix_rept : ∀ t ∈ [1, 4096],
    let s := port 3 t 0 0 0
    s.mayTrigger 0 0 h1 = true ∧ (s.trigger 0 0 3 12 h1).cfg = 0 ∧ (s.trigger 0 0 3 13 h1).cfg = 0
      ∧ 1 ≤ (s.trigger 0 0 3 13 h1).ts.toNat ∧ (s.trigger 0 0 3 13 h1).ts.toNat ≤ 4096 := by decide +kernel
theorem witness_LoopAndPrefix_wait :
    let s := base.modCtx 0 0 (fun c => { c with tokens := 1 })
    s.mayTrigger 0 0 h1 = true ∧ (s.trigger 0 0 3 16 h1).cfg = 0 ∧ (s.ctx 0 0).tokens ≠ 0 := by decide +kernel
/-- sysr of the first register of the list, to s1. -/
theorem witness_LoopAndPrefix_sysr :
    let s := port 3 0x40 0 1 0
    s.mayTrigger 0 0 h1 = true ∧ (s.trigger 0 0 3 18 h1).cfg = 0
      ∧ sysrFault (s.ctx 0 0).priv (s.trigger 0 0 3 18 h1).ts (s.trigger 0 0 3 18 h1).sb = none
      ∧ (s.atIssue 0 0).twinReadsOther 0 (s.trigger 0 0 3 18 h1).ts.toNat = false := by decide +kernel

/-- warm at the ends of its ranges. -/
theorem witness_LoopAndPrefix_warm : ∀ e ∈ [(0, 0), (2 ^ 20 - 1, 2 ^ 43 - 1)],
    let s := port 3 e.1 e.2 0 0
    let g := s.trigger 0 0 3 17 h1
    s.mayTrigger 0 0 h1 = true ∧ g.cfg = 0 ∧ g.ts.toNat < 2 ^ 20 ∧ g.sa.toNat < 2 ^ 43 := by decide +kernel

/-- sysw of UHVEC by a user context and of XINV by a supervisor, with room in its queue; trap and halt. -/
theorem witness_AfterTheBundle :
    (let s := port 3 0x1000 0x4E 0 0
     s.mayTrigger 0 0 h1 = true ∧ (s.trigger 0 0 3 19 h1).cfg = 0 ∧ syswFault (s.ctx 0 0).priv (s.trigger 0 0 3 19 h1).sa (s.trigger 0 0 3 19 h1).ts = none
       ∧ (s.trigger 0 0 3 14 h1).cfg = 0 ∧ (s.trigger 0 0 3 20 h1).cfg = 0 ∧ (s.core 0).promises 0 = false)
    ∧ (let s := (port 3 1 0x8B 0 0).modCtx 0 0 (fun c => { c with priv := true })
       s.mayTrigger 0 0 h1 = true ∧ (s.trigger 0 0 3 19 h1).cfg = 0 ∧ syswFault (s.ctx 0 0).priv (s.trigger 0 0 3 19 h1).sa (s.trigger 0 0 3 19 h1).ts = none
         ∧ s.xinvFull = false ∧ (s.core 0).promises 0 = false) := by decide +kernel
theorem witness_AfterTheBundle_eret :
    let s := base.modCtx 0 0 (fun c => { c with inh := true })
    s.mayTrigger 0 0 h1 = true ∧ (s.trigger 0 0 3 15 h1).cfg = 0 ∧ (s.ctx 0 0).inHandler = true := by decide +kernel

/-- A context with a handler for all causes. -/
def handled : State := base.modCtx 0 0 (fun c => { c with sys := { c.sys with uhvec := 0x20000, uhmask := 0xFFFE, uivec := 0x30000 } })

theorem witness_TrapEntry : ∀ t ∈ [1, 15, 16], (handled.ctx 0 0).routes t = true := by decide +kernel
theorem witness_UnroutedTrapKills : ∀ t ∈ [1, 15], ({ cause := t } : Trap).xfstat = none ∧ (base.ctx 0 0).routes t = false := by decide +kernel

theorem witness_EretRestores : ∃ c : Ctx, ∃ v, c.saved = some v ∧ Sp.wf (0 : Dw) c.bank.s = true ∧ v.hi.length = 16 :=
  ⟨{ saved := some { hi := List.replicate 16 5 } }, _, rfl, by decide +kernel, by decide +kernel⟩

/-- A move on guard 0 of g1, and one on the inverted g0. -/
theorem witness_GuardDrops : ∀ m ∈ [({ w := 0, inv := 0, grd := 1, src := 1 } : MoveHead), { w := 0, inv := 1, grd := 0, src := 1 }],
    Claims.trig (.sxAdd m 0) = some (0, 4, m) ∧ m.ok = true ∧ base.free 0 0 = true
      ∧ (let c := (base.atIssue 0 0).ctx 0 0
         ((c.bank.greg m.grd.toNat).toNat + m.inv.toNat) % 2 = 0 ∧ (m.grd = 0 ∨ c.bank.mark (0xA0 + m.grd.toNat) = none)
           ∧ c.bank.mark 0 = none) := by decide +kernel

/-- A source that names a register for port d, and one that names none. -/
theorem witness_MovesAndPorts : ∀ e ∈ [(5, true), (0xFF, false)],
    let s := port 0 e.1 0 0 0
    p1.ok = true ∧ s.free 0 0 = true ∧ s.takes 0 0 p1.grd.toNat p1.inv.toNat p1.src.toNat = true
      ∧ isReg ((((s.atIssue 0 0).readSrc 0 0 0 0 p1.src.toNat).val).toS.toNat % 256) = e.2
      ∧ isReg (5 : BitVec 8).toNat = true ∧ isReg (0xA3 : BitVec 8).toNat = true ∧ (11 : BitVec 4).toNat < 12 := by decide +kernel

/-- Two moves that exchange s1 and s2. -/
def swapBundle : Bundle := { m0 := 0x000402, m1 := 0x000801 }

theorem witness_BundleReadsThenWrites :
    let s := port 0 7 0 0 0
    s.free 0 0 = true ∧ swapBundle.hdr = 0 ∧ swapBundle.mat = 0 ∧ swapBundle.eng = 0 ∧ swapBundle.pool = 0
      ∧ staticFault swapBundle = none ∧ (∀ w ∈ swapBundle.moves, mvIsPort w = false)
      ∧ (∀ w ∈ swapBundle.moves, ((s.atIssue 0 0).readSrc 0 0 0 0 (mvSrc w)).mark = none)
      ∧ (∀ g, g < 4 → ((s.atIssue 0 0).ctx 0 0).bank.mark (0xA0 + g) = none) := by decide +kernel

theorem witness_StaticFaultTraps : base.free 0 0 = true
    ∧ staticFault { hdr := 0x20000 } = some (.illegalBundle, 8) ∧ staticFault { m2 := 0x000780 } = some (.illegalBundle, 2)
    ∧ staticFault { m5 := 0x0004FF } = some (.illegalMove, 5) ∧ staticFault { mat := 0xFFFFFF } = some (.scheduleFault, 6)
    ∧ staticFault { eng := 0xFFFFFF } = some (.scheduleFault, 7) := by decide +kernel

theorem witness_IllegalCfgTraps : ∀ e ∈ [(Instr.sxAdd h1 0, 0, 4), (.sxAdd h1 1, 1, 4), (.smMul h1, 2, 4), (.jmp h1, 3, 4), (.halt h1, 3, 20)],
    let s := port e.2.1 0 0 0 1
    Claims.trig e.1 = some (e.2.1, e.2.2, h1) ∧ e.2.1 < 4 ∧ s.mayTrigger 0 0 h1 = true ∧ (s.trigger 0 0 e.2.1 e.2.2 h1).cfg ≠ 0 := by
  decide +kernel

/-- sysr of numbers outside the list at its ends, into registers that no move may name, and of hidden registers. -/
theorem witness_SystemRegisters_sysr : ∀ e ∈ [(0x3F, 1, 0), (0x87, 1, 0), (0x92, 1, 0), (0x5C, 0, 1), (0x5C, 0x80, 1), (0x5C, 0xFF, 1), (0x80, 1, 2),
      (0x86, 0xA3, 2), (0x88, 1, 2), (0x8C, 1, 2), (0x8E, 1, 2), (0x90, 1, 2)],
    let s := port 3 e.1 0 e.2.1 0
    let g := s.trigger 0 0 3 18 h1
    s.mayTrigger 0 0 h1 = true ∧ (s.ctx 0 0).priv = false ∧ g.cfg = 0 ∧ g.ts.toNat = e.1
      ∧ isWritable (g.sb.toNat % 256) = decide (e.2.2 ≠ 1) := by decide +kernel

/-- sysw of numbers outside the list, of hidden and of read-only registers by a user, and of values that a register refuses. -/
theorem witness_SystemRegisters_sysw : ∀ e ∈ [(0x3F, 0, false), (0x87, 0, false), (0x92, 0, false), (0x80, 0, false), (0x90, 0, false), (0x40, 0, false),
      (0x44, 0, false), (0x5A, 0, false), (0x91, 0, false), (0x5C, 32, false), (0x4F, 1, false), (0x51, 31, true), (0x88, 63, true)],
    let s := (port 3 e.2.1 e.1 0 0).modCtx 0 0 (fun c => { c with priv := e.2.2 })
    let g := s.trigger 0 0 3 19 h1
    s.mayTrigger 0 0 h1 = true ∧ (s.ctx 0 0).priv = e.2.2 ∧ g.cfg = 0 ∧ g.sa.toNat = e.1 ∧ g.ts.toNat = e.2.1 := by decide +kernel

/-- Each register that reads back, inside a handler and outside. -/
theorem witness_SystemRegisters_write : ∀ n ∈ [0x41, 0x42, 0x44, 0x45, 0x46, 0x47, 0x4A, 0x4D, 0x4E, 0x4F, 0x50, 0x51, 0x57, 0x5B, 0x83, 0x88, 0x8A, 0x8C,
      0x8D, 0x8F], ∀ h ∈ [true, false], (Claims.afterWrite h n (Claims.reads base 0 0 n) 0x40).isSome = true := by decide +kernel

/-! Accesses to the scratchpad, at its first and last place. -/

/-- Nothing but an access happens in the scratchpad of core 0. -/
def plain (s : State) : Bool :=
  decide ((s.core 0).scratchPoison = [] ∧ (s.core 0).comps = [] ∧ (s.ctx 0 0).heldStores = [] ∧ (s.core 0).readsRemote 0 = false
    ∧ (s.core 0).promises 0 = false ∧ (s.core 0).twin = none)
theorem plain_spec (s : State) (h : plain s = true) : Claims.plainScratch s 0 0 := by
  obtain ⟨h1, h2, h3, h4, h5, h6⟩ := of_decide_eq_true h
  exact ⟨h1, h2, h3, h4, h5, fun t ht => by rw [h6] at ht; cases ht⟩
/-- A twin whose scratchpad is the same, and one whose scratchpad differs. -/
theorem witness_twinAlike : (∀ t, (some ({ scratch := [(5, 7)] } : TwinStore)) = some t → t.scratch = [(5, 7)] ∧ t.scratchPoison = [])
    ∧ (∃ t : TwinStore, t.scratch ≠ [(5, 7)]) :=
  ⟨by rintro t h; cases h; exact ⟨rfl, rfl⟩, ⟨{}, by decide⟩⟩

def lastOff (n : Nat) : Nat := (base.core 0).scratchSize - n

theorem witness_ScratchLoads : ∀ i ∈ [Instr.ldb h1, .ldbu h1, .ldh h1, .ldhu h1, .ldw h1, .ldwu h1, .ldd h1],
    (match Claims.load i with
      | some (p, m, n, _) => [0, lastOff n].all (fun ea =>
          let s := port 4 (ea + 8) (2 ^ 64 - 8) 0 1
          let g := s.trigger 0 0 4 p m
          s.mayTrigger 0 0 m && plain s && decide (g.cfg = 1 ∧ (g.ts + g.sa).toNat = ea ∧ ea % n = 0 ∧ ea + n ≤ (s.core 0).scratchSize))
      | none => false) = true := by decide +kernel

theorem witness_ScratchStores : ∀ i ∈ [Instr.stb h1, .sth h1, .stw h1, .std h1],
    (match Claims.store i with
      | some (p, m, n) => [0, lastOff n].all (fun ea =>
          let s := port 4 (ea + 8) (2 ^ 64 - 8) 0x0123456789ABCDEF 1
          let g := s.trigger 0 0 4 p m
          s.mayTrigger 0 0 m && plain s && decide (g.cfg = 1 ∧ (g.ts + g.sa).toNat = ea ∧ ea % n = 0 ∧ ea + n ≤ (s.core 0).scratchSize))
      | none => false) = true := by decide +kernel

/-- The premises of a vector access of form f in state s, with code z of ESZ and mask register r. -/
def vecOk (f : Claims.LvForm) (s : State) (z r : Nat) : Bool :=
  let g := s.trigger 0 0 5 f.port f.m
  let mask := ((s.atIssue 0 0).ctx 0 0).bank.mreg r
  s.mayTrigger 0 0 f.m && plain s && decide (g.cfg = BitVec.ofNat 64 (1 + z * 2 ^ 10 + r * 2 ^ 12))
    && (List.range (512 / f.esz z)).all (fun k => !(f.touches mask k) || decide (f.addr g k + f.esz z ≤ (s.core 0).scratchSize
        ∧ (if f.align z = 64 then f.addr g 0 % 64 = 0 else f.addr g k % f.align z = 0)))

theorem vecOk_spec (f : Claims.LvForm) (s : State) (z r : Nat) (h : vecOk f s z r = true) :
    s.mayTrigger 0 0 f.m = true ∧ Claims.plainScratch s 0 0 ∧ (s.trigger 0 0 5 f.port f.m).cfg = BitVec.ofNat 64 (1 + z * 2 ^ 10 + r * 2 ^ 12)
      ∧ f.fits (s.trigger 0 0 5 f.port f.m) z (((s.atIssue 0 0).ctx 0 0).bank.mreg r) (s.core 0).scratchSize := by
  simp only [vecOk, Bool.and_eq_true, decide_eq_true_eq, List.all_eq_true, List.mem_range, Bool.or_eq_true, Bool.not_eq_true'] at h
  refine ⟨h.1.1.1, plain_spec s h.1.1.2, h.1.2, fun k hk ht => ?_⟩
  rcases h.2 k hk with hf | hd
  · simp [ht] at hf
  · exact hd

/-- vld and vldm in the last 512 bytes, vlds downward, vgth backward, vldb, with the element sizes that each has. -/
theorem witness_VectorScratchLoads : ∀ e ∈ [(Instr.vld h1, lastOff 512, 0, 2, 0), (.vlds h1, 1024, 2 ^ 64 - 8, 3, 0), (.vlds h1, 0, 1, 0, 0),
      (.vldb h1, 0, 0, 0, 0), (.vldb h1, lastOff 8, 0, 3, 0), (.vldm h1, 64, 0, 2, 1), (.vgth { h1 with src := 0x41 }, 0, 4, 2, 0)],
    (match Claims.vload e.1 with
      | some f => vecOk f (port 5 e.2.1 e.2.2.1 0 (1 + e.2.2.2.1 * 2 ^ 10 + e.2.2.2.2 * 2 ^ 12)) e.2.2.2.1 e.2.2.2.2
      | none => false) = true := by decide +kernel

theorem witness_VectorScratchStores : ∀ e ∈ [(Instr.vst h1, lastOff 512, 0, 2, 0), (.vsts h1, 1024, 2 ^ 64 - 8, 3, 0), (.vsts h1, 0, 1, 0, 0),
      (.vstm h1, 64, 0, 2, 1), (.vsct { h1 with src := 0x41 }, 0, 4, 2, 0)],
    (match Claims.vstore e.1 with
      | some f => vecOk f (port 5 e.2.1 e.2.2.1 7 (1 + e.2.2.2.1 * 2 ^ 10 + e.2.2.2.2 * 2 ^ 12)) e.2.2.2.1 e.2.2.2.2
      | none => false) = true := by decide +kernel

theorem witness_ScratchAtomics : ∀ i ∈ [Instr.aadd h1, .aincb h1, .acas h1, .aswp h1, .aand h1, .aor h1, .axor h1, .amin h1, .amax h1, .aminu h1, .amaxu h1],
    (match Claims.atomic i with
      | some (p, m, _) => [(4, 1, lastOff 4), (8, 0x401, lastOff 8)].all (fun e =>
          let s := port 6 e.2.2 5 6 e.2.1
          let g := s.trigger 0 0 6 p m
          s.mayTrigger 0 0 m && plain s && decide (g.cfg.toNat = e.2.1 ∧ g.ts.toNat % e.1 = 0 ∧ g.ts.toNat + e.1 ≤ (s.core 0).scratchSize))
      | none => false) = true := by decide +kernel

theorem witness_ScratchAtomics_fp : ∀ i ∈ [Instr.afadd h1, .afmin h1, .afmax h1],
    (match Claims.fpAtomic i with
      | some (p, m, _) => [(4, 1, lastOff 4), (2, 0x1801, lastOff 2), (2, 0x2801, 2)].all (fun e =>
          let s := port 6 e.2.2 0x3F80 6 e.2.1
          let g := s.trigger 0 0 6 p m
          s.mayTrigger 0 0 m && plain s && decide (g.cfg.toNat = e.2.1 ∧ g.ts.toNat % e.1 = 0 ∧ g.ts.toNat + e.1 ≤ (s.core 0).scratchSize))
      | none => false) = true := by decide +kernel

/-! Accesses to global memory. -/

/-- The translation of an access succeeds in the device's HBM or in its windows, in memory that is cached. -/
def lands (r : Except Trap (State × Piece)) : Bool :=
  match r with
  | .ok (_, q) => !q.unc && !q.isReg && decide (paRegion q.addr ≠ 2)
  | .error _ => false

theorem witness_GlobalAccesses : ∀ i ∈ [Instr.ldd h1, .std h1],
    let p := if (Claims.load i).isSome then 10 else 14
    let k := if (Claims.load i).isSome then accRead else accWrite
    let s := port 4 0x20000 8 7 0
    let g := s.trigger 0 0 4 p h1
    s.mayTrigger 0 0 h1 = true ∧ mSpace g.cfg.toNat = 0 ∧ s.passes 0 0 g = true
      ∧ lands ((s.inTrigger 0 0 4).locate 0 0 0 { va := (g.ts + g.sa).toNat, n := 8, align := 8, kind := k }) = true := by decide +kernel

/-- A walk through two tables to a leaf of 1 GiB that passes every check; and entries at which a walk stops: an invalid one, a leaf at level 0, a
leaf of another owner, one that user code may not write. -/
def walkState (e : Nat) : State := { base with l2 := [], mem := Memory.writes [] (dwCells 0x1000 8 e) }

theorem witness_AddressTranslation :
    base.tlb = [] ∧ base.walks = [] ∧ Claims.bits (2 ^ 57) 63 56 ≠ 0 ∧ Claims.bits (2 ^ 57) 63 56 ≠ 255 ∧ Claims.bits 0x20008 63 56 = 0
      ∧ (let e := base.homeDw (Claims.entryAt base 0x1000 0x20008 2)
         e % 2 = 1 ∧ ¬ Claims.reserved 2 0x20008 e ∧ Claims.bits e 3 1 ≠ 0 ∧ Claims.bits e 63 56 = 0 ∧ Claims.bits e 4 4 = 1 ∧ Claims.given 2 e
           ∧ base.domain.getLsbD (Claims.bits e 49 44) = true)
      ∧ (let a := Claims.adPlace 2 0x7F 0x3000
         base.memOk = true ∧ isHbm a = true ∧ paNorm a = a ∧ a % 8 = 0 ∧ base.l2.length < 12288) := by
  unfold Claims.reserved Claims.given
  decide +kernel
theorem witness_AddressTranslation_reaches : Claims.reaches base 0x1000 0x20008 2 := by
  have h : ∀ j, j < 2 → base.stackReady (Claims.entryAt base 0x1000 0x20008 j) = true
      ∧ (base.homeMarked (Claims.entryAt base 0x1000 0x20008 j) = false ∧ base.deadHome (Claims.entryAt base 0x1000 0x20008 j) = false)
      ∧ (base.homeDw (Claims.entryAt base 0x1000 0x20008 j) % 2 = 1 ∧ Claims.bits (base.homeDw (Claims.entryAt base 0x1000 0x20008 j)) 3 1 = 0)
      ∧ ¬ Claims.reserved j 0x20008 (base.homeDw (Claims.entryAt base 0x1000 0x20008 j)) := by
    unfold Claims.reserved
    decide +kernel
  exact h
theorem witness_AddressTranslation_faults : ∀ e ∈ [0, 0x7F, 0x401],
    let s := walkState e
    let v := s.homeDw (Claims.entryAt s 0x1000 0 0)
    v = e ∧ (v % 2 = 0 ∨ (s.homeMarked 0x1000 = false ∧ s.deadHome 0x1000 = false)) ∧ s.stackReady 0x1000 = true
      ∧ ({ s with dies := [(0, { ready := 0 })] } : State).stackReady 0x1000 = false := by decide +kernel

/-- An access whose address no table maps. -/
theorem witness_GlobalAccesses_fault : ∀ i ∈ [Instr.ldd h1, .std h1],
    let p := if (Claims.load i).isSome then 10 else 14
    let k := if (Claims.load i).isSome then 0 else 1
    let s := port 4 0x40000000 8 7 0
    let g := s.trigger 0 0 4 p h1
    let r := s.atIssue 0 0
    s.mayTrigger 0 0 h1 = true ∧ mSpace g.cfg.toNat = 0 ∧ r.trigFault 0 0 0 g = none ∧ (g.ts + g.sa).toNat % 8 = 0
      ∧ (r.translate (r.ctxAgent 0 0) k (g.ts + g.sa).toNat).toOption = none := by decide +kernel

/-- A load whose walk meets a stack that is not ready: the root of the tables lies in it. -/
theorem witness_GlobalAccesses_waits :
    let s := ({ port 4 0x20000 8 7 0 with dies := [(0, { ready := 0 })] } : State)
    let g := s.trigger 0 0 4 10 h1
    let r := s.atIssue 0 0
    s.mayTrigger 0 0 h1 = true ∧ r.trigFault 0 0 0 g = none
      ∧ (match r.translate (r.ctxAgent 0 0) 0 (g.ts + g.sa).toNat with
         | .error f => decide (f.cause = 0)
         | .ok _ => false) = true := by decide +kernel

/-- What an atomic at global memory presumes of the piece it finds. -/
def atomOk (r : Except Trap (State × Piece)) (promo : Option (Nat × Nat)) : Bool :=
  match r with
  | .ok (t, q) =>
      let u := t.ownLine (q.addr / 128)
      !q.unc && !q.overLink && (List.range q.n).all (fun k => !(paReg (q.addr + k))) && !u.noKey q && !u.mixedKey q && !u.deadHome q.addr
        && !u.homeMarked q.addr && decide ((u.ctx 0 0).heldStores = []) && !(u.ctx 0 0).loops.ml.active
        && decide (u.promoTag 0 q = promo)
  | .error _ => false

theorem atomOk_spec (t : State) (q : Piece) (promo : Option (Nat × Nat)) (h : atomOk (.ok (t, q)) promo = true) :
    q.overLink = false ∧ Claims.plainPiece (t.ownLine (q.addr / 128)) 0 0 q ∧ (t.ownLine (q.addr / 128)).promoTag 0 q = promo := by
  simp only [atomOk, Bool.and_eq_true, Bool.not_eq_true', decide_eq_true_eq, List.all_eq_true, List.mem_range] at h
  obtain ⟨⟨⟨⟨⟨⟨⟨⟨⟨h1, h2⟩, h3⟩, h4⟩, h5⟩, h6⟩, h7⟩, h8⟩, h9⟩, h10⟩ := h
  exact ⟨h2, ⟨h1, h3, h4, h5, h6, h7, h8, h9⟩, h10⟩

theorem witness_GlobalAtomics : ∀ i ∈ [Instr.aadd h1, .aincb h1, .acas h1, .aswp h1, .aand h1, .aor h1, .axor h1, .amin h1, .amax h1, .aminu h1, .amaxu h1],
    (match Claims.atomic i with
      | some (p, m, _) => [(4, 0), (8, 0x400)].all (fun e =>
          let s := port 6 0x20000 5 6 e.2
          s.mayTrigger 0 0 m && decide ((s.trigger 0 0 6 p m).cfg.toNat = e.2) && s.passes 0 0 (s.trigger 0 0 6 p m)
            && atomOk ((s.inTrigger 0 0 6).locate 0 0 0 { va := (s.trigger 0 0 6 p m).ts.toNat, n := e.1, align := e.1, kind := accRmw }) none)
      | none => false) = true := by decide +kernel

/-- apld and apcas on a value without a tag, and on one that core 1 has released with generation 2. -/
theorem witness_PromoteAcquires : ∀ e ∈ [(18, accRmw, (none : Option (Nat × Nat))), (19, accRead, none), (18, accRmw, some (1, 2)), (19, accRead, some (1, 2))],
    let s0 := port 6 0x20000 0 1 0x400
    let s := match e.2.2 with
      | some t => { s0 with tags := (List.range 8).map (fun k => (0x20000 + k, t)) }
      | none => s0
    let g := s.trigger 0 0 6 e.1 h1
    s.mayTrigger 0 0 h1 = true ∧ g.cfg = 0x400 ∧ s.passes 0 0 g = true
      ∧ atomOk ((s.inTrigger 0 0 6).locate 0 0 0 { va := g.ts.toNat, n := 8, align := 8, kind := e.2.1 }) e.2.2 = true := by decide +kernel

/-- fence: acquire, release and both, at the first and the last scope. -/
theorem witness_FencesAndLines_fence : ∀ cfg ∈ [4, 8, 0x4C],
    let s := port 4 0 0 0 cfg
    let g := s.trigger 0 0 4 15 h1
    let ord := g.cfg.toNat / 4 % 4
    let a := if 2 ≤ ord then (s.inTrigger 0 0 4).release 0 0 (g.cfg.toNat / 16 % 8) none else s.inTrigger 0 0 4
    s.mayTrigger 0 0 h1 = true ∧ ord ≠ 0 ∧ g.cfg.toNat / 16 % 8 ≤ 4 ∧ g.cfg.toNat < 128 ∧ s.passes 0 0 g = true
      ∧ (a.ctx 0 0).loops.ml.active = false := by decide +kernel

/-- pref, wbl and invl on a mapped line; pref, on an address that is not mapped, finds an error. -/
theorem witness_FencesAndLines_lines :
    (let s := port 4 0x20000 8 0 0
     let find (p : Nat) := (s.inTrigger 0 0 4).locate 0 0 0 { va := ((s.trigger 0 0 4 p h1).ts + (s.trigger 0 0 4 p h1).sa).toNat, n := 1, align := 1, kind := accRead }
     s.mayTrigger 0 0 h1 = true ∧ s.s2 = [] ∧ (s.trigger 0 0 4 16 h1).cfg = 0 ∧ s.passes 0 0 (s.trigger 0 0 4 16 h1) = true ∧ lands (find 16) = true
       ∧ (match find 16 with
          | .ok (t, q) => t.stackReady q.addr && !t.deadHome q.addr
          | .error _ => false) = true ∧ (s.trigger 0 0 4 17 h1).cfg = 0
       ∧ s.passes 0 0 (s.trigger 0 0 4 17 h1) = true ∧ lands (find 17) = true ∧ (s.trigger 0 0 4 18 h1).cfg = 0
       ∧ s.passes 0 0 (s.trigger 0 0 4 18 h1) = true ∧ lands (find 18) = true)
    ∧ (let s := port 4 (2 ^ 40) 8 0 0
       let find := (s.inTrigger 0 0 4).locate 0 0 0 { va := ((s.trigger 0 0 4 16 h1).ts + (s.trigger 0 0 4 16 h1).sa).toNat, n := 1, align := 1, kind := accRead }
       s.mayTrigger 0 0 h1 = true ∧ (s.trigger 0 0 4 16 h1).cfg = 0 ∧ s.passes 0 0 (s.trigger 0 0 4 16 h1) = true ∧ find.toOption.isNone = true)
    ∧ (let s := port 5 0x20000 8 0 0
       s.mayTrigger 0 0 h1 = true ∧ (s.trigger 0 0 5 13 h1).cfg = 0 ∧ s.passes 0 0 (s.trigger 0 0 5 13 h1) = true) := by decide +kernel

/-- A store across a whole poisoned granule and parts of two. -/
theorem witness_StoresAndReleases :
    (let s := ({ base with poison := [0x1001, 0x1003] } : State)
     s.memOk = true ∧ s.hasKey 0 = true ∧ (∀ k, k < 40 → Claims.normal (0x2001C + k) ∧ s.lostHome (0x2001C + k) = false) ∧ Claims.roomFor s 0 (2 * 40)
       ∧ (0x2001C ≤ 0x20020 / 32 * 32 ∧ 0x20020 / 32 * 32 + 32 ≤ 0x2001C + 40)
       ∧ ¬(0x2001C ≤ 0x20060 / 32 * 32 ∧ 0x20060 / 32 * 32 + 32 ≤ 0x2001C + 40))
    ∧ base.memOk = true ∧ (∀ e, e ∈ (base.core 0).l1 → Claims.normal (128 * e.1)) := by
  simp only [Claims.normal, Claims.roomFor]
  decide +kernel
/-- No other core holds a line beside the store. -/
theorem witness_StoresAndReleases_apart : Claims.unitsFree base 0 0x2001C 40 := by
  intro j b c l hj _ _ _ _ hl
  have h : (base.core j).l1 = [] := by
    have e : base.cores = [(0, loadCore)] := by decide +kernel
    simp [State.core, e, Sp.get, Sp.find?, Ne.symm hj]
  rw [Core.l1Line?, h] at hl
  cases hl
/-- A store of one byte beside a dirty byte of another core of the cluster, in one aligned unit of 8: both bytes of that core go home (R271). -/
theorem test_unit_goes_home :
    let l : L1Line := { valid := 0x3, dirty := 0x3, data := 0x2211 }
    let s := ({ base with cores := [(0, loadCore), (1, { l1 := [(0x400, l)] })] } : State)
    let t := s.storeBytes 0 { space := 0, parts := [{ bytes := [(0x20000, 0x99)], key := some 0 }] }
    t.homeByte 0x20001 = 0x22 ∧ ((t.core 1).l1Line? 0x400).map (·.dirty) = some 0 := by decide +kernel

theorem witness_MisalignedTraps :
    (∀ i ∈ [Instr.ldh h1, .ldhu h1, .ldw h1, .ldwu h1, .ldd h1, .sth h1, .stw h1, .std h1],
      (match Claims.load i, Claims.store i with
        | some (p, m, n, _), _ => [0, 2].all (fun cfg => let s := port 4 0x20000 1 0 cfg
            s.mayTrigger 0 0 m && decide ((s.trigger 0 0 4 p m).cfg.toNat < 3 ∧ ((s.trigger 0 0 4 p m).ts + (s.trigger 0 0 4 p m).sa).toNat % n ≠ 0))
        | none, some (p, m, n) => [0, 2].all (fun cfg => let s := port 4 0x20000 1 0 cfg
            s.mayTrigger 0 0 m && decide ((s.trigger 0 0 4 p m).cfg.toNat < 3 ∧ ((s.trigger 0 0 4 p m).ts + (s.trigger 0 0 4 p m).sa).toNat % n ≠ 0))
        | none, none => false) = true)
    ∧ (∀ i ∈ [Instr.aadd h1, .acas h1, .amaxu h1],
      (match Claims.atomic i with
        | some (p, m, _) => [0, 2].all (fun cfg => let s := port 6 0x20003 0 0 cfg
            s.mayTrigger 0 0 m && decide ((s.trigger 0 0 6 p m).cfg.toNat < 3 ∧ (s.trigger 0 0 6 p m).ts.toNat % 4 ≠ 0))
        | none => false) = true) := by decide +kernel

/-- A load from a poisoned granule of the scratchpad, and a move from a marked register. -/
theorem witness_PoisonedLoads :
    (let s := (port 4 0x40 0 0 1).modCore 0 (fun k => { k with scratchPoison := [2] })
     let g := s.trigger 0 0 4 10 h1
     let ea := (g.ts + g.sa).toNat
     s.mayTrigger 0 0 h1 = true ∧ (s.ctx 0 0).heldStores = [] ∧ g.cfg = 1 ∧ ea % 8 = 0 ∧ ea + 8 ≤ (s.core 0).scratchSize
       ∧ (s.core 0).scratchPoison.contains (ea / 32) = true ∧ (s.core 0).promises 0 = false ∧ (s.core 0).twin = none)
    ∧ (let s := base.modCtx 0 0 (fun c => { c with bank := c.bank.write 1 (.s 3) (some 0x40) })
       p1.ok = true ∧ isReg (2 : BitVec 8).toNat = true ∧ s.free 0 0 = true ∧ p1.grd = 0 ∧ p1.inv = 0
         ∧ ((s.atIssue 0 0).readSrc 0 0 0 0 p1.src.toNat).mark = some 0x40 ∧ encodePlain p1 2 ≠ 0) := by decide +kernel

/-! Vectors. -/

/-- VA with formats that each operation takes, and add under RST. -/
theorem witness_VectorUnit : ∀ e ∈ [(Instr.vaAdd h1 0, 4, 0), (.vaAdd h1 0, 4, 0x400), (.vaSub h1 0, 5, 0), (.vaMul h1 0, 6, 0), (.vaFma h1 0, 7, 0),
      (.vaFms h1 0, 8, 0), (.vaMin h1 0, 9, 0), (.vaMax h1 0, 10, 0), (.vaAbs h1 0, 11, 0), (.vaNeg h1 0, 12, 0), (.vaCeq h1 0, 13, 0),
      (.vaClt h1 0, 14, 0), (.vaCle h1 0, 15, 0), (.vaCun h1 0, 16, 0), (.vaSel h1 0, 17, 0), (.vaCvt h1 0, 18, 0), (.vaAnd h1 1, 19, 0),
      (.vaOr h1 1, 20, 0), (.vaXor h1 1, 21, 0), (.vaShl h1 1, 22, 6), (.vaShr h1 1, 23, 6), (.vaSar h1 1, 24, 6), (.vaScl h1 1, 25, 0),
      (.vaClmp h1 1, 26, 0), (.vaRnd h1 1, 27, 0), (.vaQnt h1 1, 28, 48), (.vaDqn h1 1, 29, 3), (.vaMov h1 1, 30, 0)],
    let u := if e.2.1 < 19 then 7 else 8
    let s := port u 5 6 7 e.2.2
    Claims.trig e.1 = some (u, e.2.1, h1) ∧ s.mayTrigger 0 0 h1 = true ∧ vaIllegal e.2.1 (s.trigger 0 0 u e.2.1 h1).cfg.toNat = false := by
  decide +kernel

/-- INT8 and UINT32, the first and the last code of the integer formats, with a result in each of the cases of intOp. -/
theorem witness_VectorElements : (∀ f ∈ [6, 11], 6 ≤ f ∧ f ≤ 11 ∧ f % 16 = f ∧ 0 < 4096 / Claims.width f ∧ f / 2 ^ 12 % 8 < 32 / Claims.width f)
    ∧ (∀ p ∈ [4, 5, 6, 7, 8, 9, 10, 11, 12, 22, 23, 24, 26, 27], (Claims.intOp p 6 true 0x80 0xFF 3).isSome = true) := by decide +kernel

/-- Each format, with a NaN and a number for each of the clauses, at the first and the last element. -/
theorem witness_FloatNaNs : ∀ f ∈ [0, 1, 2], f < 3 ∧ f % 16 = f ∧ 0 < 4096 / Claims.width f ∧ 4096 / Claims.width f - 1 < 4096 / Claims.width f
    ∧ Claims.nanCode f (Claims.quiet f) = true ∧ Claims.nanCode f 0 = false ∧ f / 2 ^ 12 % 8 < 32 / Claims.width f := by decide +kernel

theorem witness_SpecialFunctions :
    (∀ e ∈ [(Instr.rsq h1, 4, 0), (.rcp h1, 5, 1), (.sqrt h1, 6, 2), (.exp2 h1, 7, 0), (.log2 h1, 8, 1), (.exp h1, 9, 2), (.tanh h1, 10, 0),
        (.sigm h1, 11, 1), (.silu h1, 12, 2)],
      let s := port 9 0x3F800000 6 7 e.2.2
      Claims.trig e.1 = some (9, e.2.1, h1) ∧ s.mayTrigger 0 0 h1 = true ∧ (s.trigger 0 0 9 e.2.1 h1).cfg.toNat < 3)
    ∧ (∀ f ∈ [0, 2], ∀ p ∈ [4, 12], (Claims.vfTable p f).length = 4 ∧ 1 < Claims.infCode f)
    ∧ (∀ f ∈ [0, 1, 2], Claims.quiet f < 2 ^ Claims.width f ∧ Claims.nanCode f (Claims.quiet f) = true ∧ Claims.signalling f (Claims.quiet f) = false)
    ∧ Claims.signalling 0 0x7F800001 = true ∧ Claims.nanCode 0 0x7F800001 = true := by decide +kernel

theorem witness_CrossLane : ∀ e ∈ [(Instr.rsum h1, 4), (.rmax h1, 5), (.rmin h1, 6), (.bcst h1, 7), (.perm h1, 8), (.gxch h1, 9), (.rot h1, 10),
      (.scan h1, 11), (.cmpr h1, 12), (.expd h1, 13), (.popm h1, 14), (.ffs h1, 15), (.vtos h1, 16), (.stov h1, 17)],
    let s := port 10 5 6 7 0x20
    Claims.trig e.1 = some (10, e.2, h1) ∧ s.mayTrigger 0 0 h1 = true ∧ vxIllegal e.2 (s.trigger 0 0 10 e.2 h1).cfg.toNat = false := by
  decide +kernel

/-- The whole vector and the shortest segments; a vector without and with a one for ffs, a mask with and without the element. -/
theorem witness_CrossLaneElements : (∀ e ∈ [(0, 0), (12, 1), (6, 9)], e.1 < 13 ∧ e.1 ≠ 5 ∧ e.2 < 16 ∧ Claims.segLen e.1 e.2 ≤ Claims.count e.1 ∧ 0 < Claims.count e.1)
    ∧ (3 : Vec).getLsbD 1 = true ∧ Claims.onesBelow 3 (Claims.count 0) ≤ 127
    ∧ (vxResult 15 0 (.v 8) 0 0).1 = .s 3 ∧ (∀ j, j < 128 → (0 : Vec).getLsbD j = false) := by decide +kernel

/-! The stream accumulator. -/

/-- Core 0 holds four rows, the first of which has a header for four elements. -/
def saBase (t a cfg : Nat) : State :=
  let s := port 11 t a 0 cfg
  let l := { loadLaunch with packet := [1, 0x10000, 0, 0x810909, 4, 0, 0, 0] }
  ({ s with launches := [(0, l)] } : State).setSaRow 0 0 { header := 4, valid := true, elems := [(0, 3)], t := 3, sq := 9 }

theorem witness_StreamAccumulatorUnit : ∀ e ∈ [(4, 7, 2 ^ 32, 0), (5, 0, 0, 0), (6, 0, 0, 0), (7, 4, 3, 0), (8, 3, 0, 0), (9, 0, 64, 0), (10, 0, 64, 0),
      (11, 0, 0, 0)],
    let s := saBase e.2.1 e.2.2.1 e.2.2.2
    s.mayTrigger 0 0 h1 = true ∧ s.passes 0 0 (s.trigger 0 0 11 e.1 h1) = true ∧ (s.inTrigger 0 0 11).saSteps = []
      ∧ (((s.inTrigger 0 0 11).sevt 0 0 0 64 0).ctx 0 0).loops.ml.active = false := by decide +kernel

/-- An element step at both ends of the 40-bit range, and one beyond LEN. -/
theorem witness_ElementStep : ∀ q ∈ [(2 ^ 39 - 1 : Int), -(2 ^ 39)], ∃ r : SaRow, Claims.rowOk r ∧ Claims.inRange40 (Sp.get 0 r.elems 0)
    ∧ Claims.inRange40 q ∧ (r.valid = true ∧ 0 < r.header.toNat % 2 ^ 13) ∧ ¬(r.valid = true ∧ 4 < r.header.toNat % 2 ^ 13) := by
  intro q hq
  refine ⟨{ header := 4, valid := true, elems := [(0, 3)], t := 3, sq := 9 }, ?_⟩
  simp only [List.mem_cons, List.mem_nil_iff, or_false] at hq
  rcases hq with rfl | rfl <;> (simp only [Claims.rowOk, Claims.inRange40]; decide +kernel)

theorem witness_ElementStep_adds : ∃ r : SaRow, Claims.rowOk r ∧ (∀ k, Claims.inRange40 (Sp.get 0 r.elems k)) ∧ Claims.inRange40 (2 ^ 39 - 10)
    ∧ Claims.inRange40 (-4) ∧ Claims.inRange40 (Sp.get 0 r.elems 0 + (2 ^ 39 - 10)) ∧ Claims.inRange40 (Sp.get 0 r.elems 0 + -4)
    ∧ Claims.inRange40 (Sp.get 0 r.elems 0 + (2 ^ 39 - 10) + -4) := by
  refine ⟨{ header := 4, valid := true }, ?_, fun k => ?_, ?_⟩
  · simp only [Claims.rowOk]; decide +kernel
  · simp only [Claims.inRange40]; exact ⟨by simp [Sp.get, Sp.find?], by simp [Sp.get, Sp.find?]⟩
  · simp only [Claims.inRange40]; decide +kernel

/-! The slots of the matrix and the engine. -/

theorem witness_SlotDispatch_empty : Claims.mayDispatch base 0 0 := ⟨by decide +kernel, by decide +kernel⟩

/-- An operand address that Claims.operandOk accepts. -/
def operandB (s : State) (core align extent : Nat) (remote : Bool) (v : Dw) : Bool :=
  let a := v.toNat
  decide (a / 2 ^ 29 = 0 ∧ a / 2 ^ 20 % 16 = 0 ∧ a % 2 ^ 20 % align = 0)
    && (if a / 2 ^ 28 % 2 = 0 then decide (a / 2 ^ 24 % 16 = 0 ∧ a % 2 ^ 20 + extent ≤ (s.core core).scratchSize)
        else remote && match s.peerCore core (a / 2 ^ 24 % 16) with
          | some c => decide (a % 2 ^ 20 + extent ≤ (s.core c).scratchSize)
          | none => false)

theorem operandB_spec (s : State) (core align extent : Nat) (remote : Bool) (v : Dw) (h : operandB s core align extent remote v = true) :
    Claims.operandOk s core align extent remote v := by
  simp only [operandB, Bool.and_eq_true, decide_eq_true_eq] at h
  obtain ⟨⟨h1, h2, h3⟩, h4⟩ := h
  refine ⟨h1, h2, h3, fun hz => ?_, fun ho => ?_⟩
  · rw [if_pos hz] at h4
    exact of_decide_eq_true h4
  · rw [if_neg (by omega)] at h4
    obtain ⟨hr, h5⟩ := Bool.and_eq_true_iff.1 h4
    refine ⟨hr, ?_⟩
    cases hp : s.peerCore core (v.toNat / 2 ^ 24 % 16) with
    | none => rw [hp] at h5; exact Bool.noConfusion h5
    | some c => rw [hp] at h5; exact ⟨c, rfl, of_decide_eq_true h5⟩

/-- A record of an earlier dispatch lies far enough back (R42). -/
def laterThan (o : Option (Nat × Nat)) (count : Nat) : Bool :=
  match o with
  | some e => decide (e.1 + 2 * e.2 ≤ count)
  | none => true

theorem laterThan_spec (o : Option (Nat × Nat)) (count : Nat) (h : laterThan o count = true) : ∀ e, o = some e → e.1 + 2 * e.2 ≤ count := by
  rintro e rfl
  simpa [laterThan] using h

/-- A configuration that Claims.configOk accepts. -/
def configB (v : Nat) : Bool :=
  decide (v / 2 ^ 48 = 0 ∧ Claims.mclass (v % 16) ≠ none ∧ Claims.mclass (v / 16 % 16) = Claims.mclass (v % 16)
    ∧ (v / 2 ^ 8 % 2 = 1 ∨ v / 2 ^ 9 % 2 = 1 → Claims.mclass (v % 16) = some 1 ∨ Claims.mclass (v % 16) = some 2))

/-- The premises of a dispatch in slot 6. -/
def matB (s : State) (w : Nat) : Bool :=
  let r := s.atIssue 0 0
  let c := r.ctx 0 0
  let op := w / 2 ^ 19
  let n := Claims.matBeats w
  let cfg := c.mcfg.toNat
  let ra := w / 2 ^ 12 % 16
  let rb := w / 2 ^ 8 % 16
  let mul : Bool := decide (2 ≤ op ∧ op ≤ 5)
  let at_ (v sa : Dw) (k : Nat) : Dw := v + BitVec.ofNat 64 k * sa
  let reps := (c.rept.map (·.r)).getD 1
  let sA := (c.rept.map (·.sA)).getD 0
  let sB := (c.rept.map (·.sB)).getD 0
  let scA := decide (cfg / 2 ^ 8 % 2 = 1)
  let scB := decide (cfg / 2 ^ 9 % 2 = 1)
  laterThan c.recM c.count && decide (c.bank.mark (0x90 + ra) = none) && decide (c.bank.mark (0x90 + rb) = none)
    && (decide (c.rept = none) || mul) && (decide (op ≠ 1) || configB (c.bank.areg ra).toNat)
    && (!mul || decide (Claims.mclass (cfg % 16) ≠ some 1 ∨ (scA = false ∧ scB = false) ∨ n % 2 = 0))
    && (!mul || (List.range reps).all (fun k => operandB r 0 16 (Claims.panelBytes n (cfg % 16) scA) true (at_ (c.bank.areg ra) sA k)))
    && (!mul || decide (op = 5)
        || (List.range reps).all (fun k => operandB r 0 16 (Claims.panelBytes n (cfg / 16 % 16) scB) true (at_ (c.bank.areg rb) sB k)))
    && (decide (op ≠ 5) || (List.range reps).all (fun k => operandB r 0 8 128 false (at_ (c.bank.areg rb) sB k)))
    && (decide (op ≠ 6 ∧ op ≠ 7) || operandB r 0 64 1024 false (c.bank.areg ra))
    && (decide (op ≠ 9) || operandB r 0 16 (n * 48) false (c.bank.areg ra))

theorem matB_spec (s : State) (w : Nat) (h : matB s w = true) : Claims.matReady s 0 0 w := by
  simp only [matB, Bool.and_eq_true, Bool.or_eq_true, Bool.not_eq_true', decide_eq_true_eq, decide_eq_false_iff_not, List.all_eq_true,
    List.mem_range] at h
  obtain ⟨⟨⟨⟨⟨⟨⟨⟨⟨⟨h1, h2⟩, h3⟩, h4⟩, h5⟩, h6⟩, h7⟩, h8⟩, h9⟩, h10⟩, h11⟩ := h
  refine ⟨laterThan_spec _ _ h1, fun _ => h2, fun _ => h3, h4, fun ho => ?_, fun hm hc hs => ?_, fun hm k hk => ?_, fun hm ho k hk => ?_,
    fun ho k hk => ?_, fun ho => ?_, fun ho => ?_⟩
  · simpa only [configB, decide_eq_true_eq, Claims.configOk] using h5.resolve_left (fun hn => hn ho)
  · rcases (h6.resolve_left (fun x => x hm)) with ha | ⟨ha, hb⟩ | ha
    · exact absurd hc ha
    · rcases hs with hs | hs
      · exact absurd hs ha
      · exact absurd hs.1 hb
    · exact ha
  · exact operandB_spec _ _ _ _ _ _ (h7.resolve_left (fun x => x hm) k hk)
  · exact operandB_spec _ _ _ _ _ _ ((h8.resolve_left (fun x => x.elim (fun y => y hm) ho)) k hk)
  · exact operandB_spec _ _ _ _ _ _ ((h9.resolve_left (fun x => x ho)) k hk)
  · exact operandB_spec _ _ _ _ _ _ (h10.resolve_left (by omega))
  · exact operandB_spec _ _ _ _ _ _ (h11.resolve_left (fun x => x ho))

/-- The premises of a dispatch in slot 7, with no launch asked whether its channels are lenient. -/
def engB (s : State) (w : Nat) : Bool :=
  let r := s.atIssue 0 0
  let c := r.ctx 0 0
  let op := w / 2 ^ 19
  let v := (c.bank.areg (w / 2 ^ 10 % 16)).toNat
  let size := Claims.blockBytes op
  laterThan c.recE c.count && decide (c.bank.mark (0x90 + w / 2 ^ 10 % 16) = none)
    && decide (op = 9 → v / 2 ^ 35 = 0 ∧ v / 2 ^ 32 % 8 ≤ 4) && decide (op = 10 → v / 2 ^ 32 = 0)
    && decide (11 ≤ op → op ≤ 15 → v / 2 ^ 48 = 0 ∧ v / 2 ^ 8 % 256 = 0 ∧ (op ≠ 14 → v / 2 ^ 16 % 2 ^ 32 = 0) ∧ (w / 2 ^ 7 % 2 = 0 → v % 256 = 0))
    && (decide (op < 1 ∨ 10 < op) || match Sp.find? (r.core 0).chans (w / 2 ^ 14 % 32) with
          | some h => decide (h.open_.length < 16) || ((r.launchOf 0).map (·.lenient)).getD false
          | none => false)
    && decide (size ≠ 0 → v % size = 0 ∧ v < 2 ^ 20 ∧ v + size ≤ (r.core 0).scratchSize) && decide (op = 18 → c.priv = true)

theorem engB_spec (s : State) (w : Nat) (h : engB s w = true) : Claims.engReady s 0 0 w := by
  simp only [engB, Bool.and_eq_true, Bool.or_eq_true, decide_eq_true_eq] at h
  obtain ⟨⟨⟨⟨⟨⟨⟨h1, h2⟩, h3⟩, h4⟩, h5⟩, h6⟩, h7⟩, h8⟩ := h
  refine ⟨laterThan_spec _ _ h1, h2, h3, h4, h5, fun ha hb => ?_, h7, h8⟩
  have hc := h6.resolve_left (by omega)
  cases hf : Sp.find? ((s.atIssue 0 0).core 0).chans (w / 2 ^ 14 % 32) with
  | none => rw [hf] at hc; exact Bool.noConfusion hc
  | some h =>
      rw [hf] at hc
      simp only [Bool.or_eq_true, decide_eq_true_eq] at hc
      refine ⟨h, rfl, fun _ => hc.imp id (fun hl => ?_)⟩
      cases hl' : (s.atIssue 0 0).launchOf 0 with
      | none => simp [hl'] at hl
      | some l => exact ⟨l, rfl, by simpa [hl'] using hl⟩

/-- The premises of an instruction that a bundle of its own dispatches. -/
def dispatches (i : Instr) (s : State) : Bool :=
  match bundleOf i with
  | some b => i.wf && s.free 0 0 && decide (((s.atIssue 0 0).ctx 0 0).bank.mark 0 = none) && (decide (b.mat = 0) || matB s b.mat.toNat)
      && (decide (b.eng = 0) || engB s b.eng.toNat) && decide (b.mat ≠ 0 ∨ b.eng ≠ 0)
  | none => false

theorem dispatches_spec (i : Instr) (s : State) (b : Bundle) (hb : bundleOf i = some b) (h : dispatches i s = true) :
    i.wf = true ∧ Claims.mayDispatch s 0 0 ∧ (b.mat ≠ 0 → Claims.matReady s 0 0 b.mat.toNat) ∧ (b.eng ≠ 0 → Claims.engReady s 0 0 b.eng.toNat)
      ∧ (b.mat ≠ 0 ∨ b.eng ≠ 0) := by
  simp only [dispatches, hb, Bool.and_eq_true, Bool.or_eq_true, decide_eq_true_eq] at h
  obtain ⟨⟨⟨⟨⟨h1, h2⟩, h3⟩, h4⟩, h5⟩, h6⟩ := h
  exact ⟨h1, ⟨h2, h3⟩, fun hm => matB_spec _ _ (h4.resolve_left hm), fun he => engB_spec _ _ (h5.resolve_left he), h6⟩

/-- A context whose address registers a0 and a1 point into the scratchpad; with a channel, a record of an earlier dispatch, and the
privilege of a supervisor. -/
def slotState : State :=
  let s := base.modCtx 0 0 (fun c => { c with bank := { c.bank with a := [(1, 0x400), (2, 0xF022)] }, recM := some (0, 1), recE := some (0, 1), count := 2, priv := true })
  { s.modCore 0 (fun k => { k with chans := [(0, {}), (31, {})] }) with launches := [(0, { loadLaunch with packet := [1, 0x10000, 0, 0x810909, 0xFFF_003F_0000, 0, 0, 0], priv := true })] }

/-- All matrix operations, mma also under a repeat prefix. -/
theorem witness_SlotDispatch_matrix :
    (∀ i ∈ [Instr.mcfg 2, .mma 7 0 1 255, .mmaz 0 0 1 0, .mmar 0 0 1 0, .mmap 0 0 1 0, .accrd 0 1 15, .accwr 0 1 15, .acccl 7, .pldef 0 1 0, .mmrk 255],
      dispatches i slotState = true)
    ∧ dispatches (.mma 0 0 1 0) (slotState.modCtx 0 0 (fun c => { c with rept := some { r := 2, sA := 64, sB := 64 } })) = true := by decide +kernel

/-- All engine operations. -/
theorem witness_SlotDispatch_engine :
    ∀ i ∈ [Instr.cpy 0 1 15, .cpn 0 1 0, .cpz 0 1 0, .cpc 0 1 0, .cpk 0 1 0, .cpe 31 1 0, .send 0 1 0, .recv 0 1 0, .chw 0 1 0, .chi 0 1 0,
        .phr 31 0 0 1, .phd 0 0 0, .phs 0 0 1, .phb 0 0 0, .phw 0 0 1, .ple 1 0, .plu 1 0, .ckpStart 1, .ckpStop 1, .ckpQuiesce 1, .ckpStatus 1],
      dispatches i slotState = true := by decide +kernel

/-- The slot state with a1 = v, its context changed by f. -/
def slotWith (v : Nat) (f : Ctx → Ctx := id) : State :=
  slotState.modCtx 0 0 (fun c => f { c with bank := { c.bank with a := [(1, BitVec.ofNat 64 v), (2, 0xF022)] } })

/-- A context that may dispatch the word of an instruction; `q` of the context in which its registers are read and of the word's number. -/
def refuses (i : Instr) (s : State) (q : Ctx → Nat → Bool) : Bool :=
  let c := (s.atIssue 0 0).ctx 0 0
  match bundleOf i with
  | some b => i.wf && s.free 0 0 && decide (c.bank.mark 0 = none) && q c (if b.mat = 0 then b.eng.toNat else b.mat.toNat)
  | none => false

/-- R42 for both slots, with a dispatch in the bundle before; a user's ckp; a marked register. -/
theorem witness_SlotTraps_early :
    (∀ i ∈ [Instr.mma 0 1 1 0, .cpy 0 1 0], refuses i (slotWith 0x400 (fun c => { c with count := 1 }))
      (fun c _ => decide (c.recM = some (0, 1) ∧ c.recE = some (0, 1) ∧ c.count = 1)) = true)
    ∧ refuses (.ckpStart 1) (slotWith 0x400 (fun c => { c with priv := false })) (fun c w => decide (w / 2 ^ 19 = 18 ∧ c.priv = false)) = true
    ∧ (∀ i ∈ [Instr.mma 0 2 1 0, .cpy 0 1 0], refuses i (slotWith 0x400 (fun c => { c with bank := { c.bank with marks := [(0x91, 7)] } }))
      (fun c _ => decide (c.bank.mark 0x91 = some 7)) = true) := by decide +kernel

/-- Row 4 of R216: a prefix before mcfg, a bad value, an odd count with scales; rows 5 and 6: each condition at its boundary. -/
theorem witness_SlotTraps_matrix :
    (∀ e ∈ [(Instr.mcfg 2, some ({ r := 1, sA := 0, sB := 0 } : Rept), 0xF022), (.mcfg 1, none, 0xF022), (.mma 0 1 1 0, none, 0xF133)],
      refuses e.1 (slotWith 0x400 (fun c => { c with rept := e.2.1, mcfg := e.2.2 }))
        (fun c w => (c.rept.isSome && w / 2 ^ 19 == 1) || (w / 2 ^ 19 == 1 && c.bank.areg 1 == 0x400) || c.mcfg == 0xF133) = true)
    ∧ (∀ v ∈ [2 ^ 29, 2 ^ 20, 2 ^ 24, 8], refuses (.mma 0 1 1 0) (slotWith v)
        (fun c w => (Claims.operandsOf c w).any (fun o =>
          let a := o.reg.toNat
          decide (a / 2 ^ 29 ≠ 0 ∨ a / 2 ^ 20 % 16 ≠ 0 ∨ (a / 2 ^ 28 % 2 = 0 ∧ a / 2 ^ 24 % 16 ≠ 0) ∨ a % 2 ^ 20 % o.align ≠ 0))) = true)
    ∧ (refuses (.accrd 0 1 15) (slotWith 0xDFC40)
        (fun c w => (Claims.operandsOf c w).any (fun o => decide (o.reg.toNat % o.align = 0 ∧ (slotState.core 0).scratchSize < o.reg.toNat + o.extent))) = true)
    ∧ (refuses (.accrd 0 1 15) (slotWith 0x10000000)
        (fun c w => (Claims.operandsOf c w).any (fun o => decide (o.reg.toNat / 2 ^ 28 % 2 = 1 ∧ o.remote = false))) = true) := by decide +kernel

/-- A register operand of chw, chi and phs; a channel that is not bound; a block that is not aligned, above the offsets, beyond the scratchpad; a
full channel in strict mode. -/
theorem witness_SlotTraps_engine :
    (∀ e ∈ [(Instr.chw 0 1 0, 2 ^ 35), (.chw 0 1 0, 5 * 2 ^ 32), (.chi 0 1 0, 2 ^ 32), (.phs 0 1 0, 2 ^ 48), (.phs 0 1 0, 0x100), (.phs 0 1 0, 1),
        (.phs 0 1 1, 0x10000), (.phb 0 1 1, 2 ^ 63)],
      refuses e.1 (slotWith e.2) (fun c w =>
        let v := (c.bank.areg 1).toNat
        let op := w / 2 ^ 19
        decide ((op = 9 ∧ (v / 2 ^ 35 ≠ 0 ∨ 4 < v / 2 ^ 32 % 8)) ∨ (op = 10 ∧ v / 2 ^ 32 ≠ 0) ∨ (11 ≤ op ∧ op ≤ 15 ∧ (v / 2 ^ 48 ≠ 0
          ∨ v / 2 ^ 8 % 256 ≠ 0 ∨ (op ≠ 14 ∧ v / 2 ^ 16 % 2 ^ 32 ≠ 0) ∨ (w / 2 ^ 7 % 2 = 0 ∧ v % 256 ≠ 0))))) = true)
    ∧ refuses (.cpy 3 1 0) (slotWith 0x400) (fun _ w => decide (w / 2 ^ 14 % 32 = 3 ∧ Sp.find? (slotState.core 0).chans 3 = none)) = true
    ∧ (∀ v ∈ [0x408, 2 ^ 20, 0xE0000], refuses (.cpy 0 1 0) (slotWith v) (fun c w =>
        let a := (c.bank.areg 1).toNat
        decide (Claims.blockBytes (w / 2 ^ 19) = 32 ∧ (a % 32 ≠ 0 ∨ 2 ^ 20 ≤ a ∨ (slotState.core 0).scratchSize < a + 32))) = true)
    ∧ (let s := slotState.modCore 0 (fun k => { k with chans := [(0, { open_ := List.range 16 })] })
       refuses (.cpn 0 1 0) s (fun c _ => decide ((c.bank.areg 1).toNat % 64 = 0)) = true
         ∧ (match (s.atIssue 0 0).launchOf 0 with
            | some l => l.lenient == false
            | none => false) = true) := by decide +kernel

/-- An mcfg and a chw in one bundle. -/
theorem witness_TwoSlotBundle :
    let b : Bundle := { mat := (encodeMat (.mcfg 2)).getD 0, eng := (encodeEng (.chw 0 1 0)).getD 0 }
    Claims.mayDispatch slotState 0 0 ∧ b.moves = [0, 0, 0, 0, 0, 0] ∧ b.hdr = 0 ∧ b.pool = 0 ∧ staticFault b = none ∧ b.mat ≠ 0 ∧ b.eng ≠ 0
      ∧ b.eng.toNat / 2 ^ 8 % 4 ≠ 3 ∧ Claims.matReady slotState 0 0 b.mat.toNat ∧ Claims.engReady slotState 0 0 b.eng.toNat := by
  refine ⟨⟨by decide +kernel, by decide +kernel⟩, by decide +kernel, by decide +kernel, by decide +kernel, by decide +kernel, by decide +kernel,
    by decide +kernel, by decide +kernel, matB_spec _ _ (by decide +kernel), engB_spec _ _ (by decide +kernel)⟩

/-! The agents. -/

/-- Core 0 with its fields changed by f. -/
def coreIs (f : Core → Core) : State := base.modCore 0 f
def ctxIs (f : Ctx → Ctx) : State := base.modCtx 0 0 f

/-- A pair whose move to point 2 has ended; a pair at rest; a pair that nothing holds. -/
theorem witness_PairSteps :
    (let s := ({ base with pairs := [(0, { moving := some 2 })] } : State)
     (s.pair 0).moving = some 2 ∧ (s.pairTicks 0 = false ∨ (s.pair 0).moveEnd ≤ s.pairNow 0))
    ∧ (base.pair 0).moving = none ∧ Claims.heldBy (coreIs (fun k => { k with frozen := some .grant })) 0 0 ∧ State.reset.pairHolders 511 = [] := by
  refine ⟨by decide +kernel, by decide +kernel, ⟨_, rfl, ?_⟩, by decide +kernel⟩
  decide +kernel

def addI : Instr := .sxAdd h1 0
/-- The base state with a bundle at the program counter. -/
def fetching (b : Bundle) (f : Ctx → Ctx) : State := (base.withBundle b).modCtx 0 0 f
def waitBundle (mb : Nat) : Bundle := { hdr := BitVec.ofNat 32 mb, m0 := 0x000670 }

theorem witness_ContextSteps :
    (let s := ctxIs (fun c => { c with loops := { c.loops with l2 := { active := true } } })
     ((s.ctx 0 0).loops.level 2).active = true ∧ ((s.ctx 0 0).loops.level 2).count = 0)
    ∧ (let s := ctxIs (fun c => { c with loops := { c.loops with ml := { active := true, n := 2, mAbs := 2, k := 3, st := 2, issued := 9 } } })
       (s.ctx 0 0).loops.ml.active = true ∧ (s.ctx 0 0).loops.ml.total ≤ (s.ctx 0 0).loops.ml.issued)
    ∧ ((fetching (waitBundle 0x1000) id).blocksWith 0 true).isSome = true ∧ ((fetching (waitBundle 0) id).blocksWith 0 false).isSome = true
    ∧ (let s := coreIs (fun k => { k with run := none })
       (s.core 0).run = none ∧ (s.core 0).frozen = none ∧ (s.core 0).launch ≠ none ∧ nextCtx (s.core 0).mayRun (s.core 0).last = some 0)
    ∧ (let s := coreIs (fun k => { k with stalled := true })
       (s.core 0).run = some 0 ∧ (s.core 0).frozen = none ∧ (s.core 0).stalled = true ∧ (s.core 0).unblocked 0 = true)
    ∧ (let s := fetching { m0 := 0x000402 } (fun c => { c with flight := [{ due := 0, born := 0, unit := 1, dest := some 1, val := some (.s 5) }] })
       (match s.takeNext 0 with
        | (r, some (x, b)) => decide (x = 0) && decide ((r.arriveAt 0 x b).2 = .go) && decide ((r.ctx 0 x).due ≠ [])
        | _ => false) = true)
    ∧ ((coreIs (fun k => { k with frozen := some .fetch })).core 0).frozen = some .fetch
    ∧ (let s := ({ base with dies := [(3, { fenced := true })], peersSuspended := 2 } : State)
       (3 < 4 ∧ s.dieDown 3 = true) ∧ s.peersSuspended ≠ 0)
    ∧ (let s := ctxIs (fun c => { c with uip := [7] })
       (s.core 0).run = some 0 ∧ (s.core 0).frozen = none ∧ (s.ctx 0 0).inHandler = false ∧ (s.ctx 0 0).uip = [7]) := by decide +kernel

/-! Kills, headers and loops. -/

/-- A kill of a launch that holds core 0, one of whose recvs waits. -/
theorem witness_UnroutedTrapKills_kill :
    let x : Xfer := { core := 0, ctx := 0, launch := 0, ch := 0, id := 0, op := 8, phase := .queued }
    let s := ({ base with xfers := [(0, x)] } : State)
    (s.launch 0).phase ≠ .done ∧ (∃ g, g ∈ (s.launch 0).groups ∧ g.core = 0) ∧ (s.core 0).launch = some 0 ∧ 0 ∈ (s.core 0).ctxs.map (·.1)
      ∧ ((s.core 0).ctx 0).phase ≠ .off ∧ Sp.find? s.xfers 0 = some x ∧ (s.core 1).launch ≠ some 0 := by
  refine ⟨by decide +kernel, ⟨_, List.mem_singleton.mpr rfl, rfl⟩, by decide +kernel, by decide +kernel, by decide +kernel, by decide +kernel,
    by decide +kernel⟩
/-- No context of it is a member of a phaser. -/
theorem witness_UnroutedTrapKills_quiet : ∀ p k x, ({ base with clusters := [], dies := [] } : State).departSignals p k x = false := by
  intro p k x
  have h : (({ base with clusters := [], dies := [] } : State).phaser p).members = [] := by
    simp [State.phaser, State.clu, State.die, Sp.get, Sp.find?]
  simp [State.departSignals, Phaser.member?, h]

/-- Each phaser operation as a member's and as that of a context that is none. -/
theorem witness_EngineEffects : ∀ op ∈ [12, 13, 14, 15],
    let s (mode : Nat) : State := base.setPhaser (cluPhaserKey 0 0) { members := [{ core := 0, ctx := 0, mode := mode, j := 0, ns := 0, nw := 0 }] }
    base.phaserRefused 0 { ctx := 0, op := op } = true ∧ (s 3).phaserRefused 0 { ctx := 0, op := op } = false
      ∧ (s 3).departSignals (cluPhaserKey 0 0) 0 0 = true
      ∧ (s 2).phaserRefused 0 { ctx := 0, op := 12 } = false ∧ (s 2).departSignals (cluPhaserKey 0 0) 0 0 = false := by decide +kernel

/-- A pair with a grant of 10, of which 8 is spent: a bundle of weight 3 is held, one of weight 2 is not, and the first of a period is not;
in a tidelocked pair a bundle of weight 2 is late for the upper twin; a core that a new period has let go on is not held again. -/
theorem witness_BundleHeader :
    (∀ e ∈ [(3, false, 0), (2, false, 0), (3, true, 0), (2, false, 1)],
      let s := ({ base with pairs := [(0, { mode := BitVec.ofNat 2 e.2.2, grantEn := true, grant := 10, sum := 8, fresh := e.2.1 })] } : State)
      let p := s.pair (s.pairOf 0)
      s.free 0 0 = true ∧ ((s.atIssue 0 0).ctx 0 0).bank.mark 0 = none ∧ e.1 < 64
        ∧ (p.grantEn = true ∧ e.1 ≠ 0 ∧ p.fresh = false ∧ p.grant.toNat < p.sum + e.1 ↔ e = (3, false, 0))
        ∧ (p.mode = 1 ∧ p.grantEn = true ∧ e.1 ≠ 0 ∧ p.grant.toNat < min 0xFFFF (p.sum + e.1) + e.1 ↔ e = (2, false, 1))
        ∧ (s.core 0).granted = false)
    ∧ (let s := coreIs (fun k => { k with granted := true })
       s.free 0 0 = true ∧ ((s.atIssue 0 0).ctx 0 0).bank.mark 0 = none ∧ (s.core 0).granted = true)
    ∧ (let s := ctxIs (fun c => { c with setLen := 3 })
       s.free 0 0 = true ∧ ((s.atIssue 0 0).ctx 0 0).bank.mark 0 = none ∧ ((s.atIssue 0 0).ctx 0 0).setLen ≠ 0)
    ∧ ((base.atIssue 0 0).ctx 0 0).setLen = 0 ∧ 63 < 64 ∧ 7 < 8 := by decide +kernel

/-- Core 0 in a modulo loop. -/
def inLoop (m : Modulo) : State := ctxIs (fun c => { c with loops := { c.loops with ml := m } })
/-- A store of the byte v at offset 5 of the core's scratchpad. -/
def storeOf (v : Byte) : StoreAcc := { space := 1, parts := [{ bytes := [(5, v)] }] }

theorem witness_LoopExecution_loops :
    (∀ on ∈ [true, false], let s := ctxIs (fun c => { c with loops := { c.loops with l2 := { active := on, count := 2 } } })
      s.free 0 0 = true ∧ ((s.atIssue 0 0).ctx 0 0).bank.mark 0 = none ∧ (((s.atIssue 0 0).ctx 0 0).loops.level 2).active = on)
    ∧ (∀ e ∈ [(0, true), (2, false), (3, false)], let s := inLoop { active := true, n := 2, mAbs := 2, k := e.1 + 1, st := 1, issued := 0, rb := true }
      (s.modCtx 0 0 (fun c => { c with loops := { c.loops with ml := {} } })).free 0 0 = true
        ∧ ((s.atIssue 0 0).ctx 0 0).loops.ml.active = true ∧ ((s.atIssue 0 0).ctx 0 0).bank.mark 0 = none
        ∧ (Claims.lead (s.ctx 0 0).loops.ml ≤ 0 ∧ 0 < Claims.lead (s.ctx 0 0).loops.ml + Claims.kernel (s.ctx 0 0).loops.ml
            ∧ (0 - Claims.lead (s.ctx 0 0).loops.ml) % (e.1 + 1) = e.1 ↔ e.2 = true)) := by decide +kernel

/-- A held store, one that is held for iteration 0, one that a rollback has made to fall away, one that leaves at once; and a rollback with a
handler and without. -/
theorem witness_LoopExecution_stores :
    (let s := inLoop { active := true, rb := true, held := [(1, storeOf 7)] }
     (s.ctx 0 0).loops.ml.held = [(1, storeOf 7)] ∧ (storeOf 7).space = 1 ∧ (storeOf 7).core = 0 ∧ (storeOf 7).rel = none)
    ∧ (∀ e ∈ [(0, 0, false), (3, 0, true), (0, 1, false)], let m : Modulo := { active := true, rb := true, mAbs := 2, k := 1, issued := e.1, sts := e.2.1, again := e.2.2 }
       let p := Claims.passNo ((inLoop m).ctx 0 0).loops.ml
       m.active = true ∧ m.rb = true ∧ m.fresh = false
         ∧ (if e.2.1 = 1 then p < m.sts
            else if e.2.2 = true then m.sts ≤ p ∧ m.base ≤ p - m.sts ∧ m.mAbs ≤ p - m.sts
            else m.sts ≤ p ∧ m.base ≤ p - m.sts ∧ p - m.sts < m.mAbs))
    ∧ (storeOf 7).cells = [] ++ [(5, 7)]
    ∧ (∀ h ∈ [true, false],
       let l := inLoop { active := true, rb := true, n := 4, mAbs := 4, k := 2, st := 1, issued := 5, held := [(3, storeOf 7)] }
       let s := l.modCtx 0 0 (fun c => { c with sys := { c.sys with uhmask := if h then 0x800 else 0 } })
       let m := (s.ctx 0 0).loops.ml
       m.active = true ∧ m.rb = true ∧ (∀ j ∈ m.held, max m.base (Claims.passNo m + 1 - m.st) ≤ j.1)
         ∧ (s.ctx 0 0).sys.uhmask.getLsbD 11 = h ∧ (s.ctx 0 0).inHandler = false ∧ (s.launch (s.ctx 0 0).launch).phase ≠ .done
         ∧ m.issued % m.k ≠ 0) := by decide +kernel

/-- The array of core 0 is in a beat of an operation. -/
def inBeat (op beat beats : Nat) (waits : Bool) : State :=
  coreIs (fun k => { k with mrun := some { ent := { ctx := 0, op := op, beats := beats, mark := 1 }, beat := beat, waits := waits } })
/-- The engine queue of core 0 holds an operation alone, and channel 0 has this occupancy. -/
def headOf (e : EEnt) (open_ : List Nat) : State := coreIs (fun k => { k with eq := [e], chans := [(0, { open_ := open_, next := open_.length })] })
/-- The head as the statement's cases see it: discarded, over-occupied, held, full. -/
def headCase (s : State) (e : EEnt) : Bool × Bool × Bool × Bool :=
  let r := s.modCore 0 Core.popNopsE
  (r.engDiscard 0 e, (r.core 0).overOccupied e, r.engHeld 0 e, r.engFull 0 e)

theorem witness_QueueSteps :
    (∀ op ∈ [2, 5], let s := coreIs (fun k => { k with mq := [{ ctx := 0, op := op }] })
     (s.core 0).mrun = none ∧ (s.core 0).mq = [{ ctx := 0, op := op }] ∧ op ≠ 0
       ∧ (s.core 0).windowOpen ((s.core 0).windowUp (max (s.core 0).mfree 0)) = true)
    ∧ (∀ e ∈ [(15, true), (15, false), (3, false)], let b := (inBeat 6 e.1 16 e.2).beatSettle 0
       (b.core 0).mrun.isSome = true ∧ (b.core 0).mrun.map (·.waits) = some e.2 ∧ (b.core 0).windowOpen (b.core 0).mwin = true)
    ∧ ((coreIs (fun k => { k with marks := [(0, 255, 1)] })).core 0).marks = [(0, 255, 1)]
    ∧ (let f : Phaser := { members := [{ core := 0, ctx := 0, mode := 3, j := 0, ns := 1, nw := 0 }] }
       ((State.reset.setPhaser 0 f).phaser 0).ready = true) := by decide +kernel

/-- The head of the engine queue that goes, is discarded, over-occupied, held, or finds the log full. -/
theorem witness_QueueSteps_engine :
    (∀ st ∈ [true, false], let e : EEnt := { ctx := 0, op := 1, ch := 0, stalled := st }
       (headOf e [0]).engHead 0 = some (0, e) ∧ headCase (headOf e [0]) e = (false, false, false, false))
    ∧ (let e : EEnt := { ctx := 0, op := 9 }
       let s := (headOf e []).modCtx 0 0 (fun c => { c with phase := .ended })
       s.engHead 0 = some (0, e) ∧ (headCase s e).1 = true)
    ∧ (let e : EEnt := { ctx := 0, op := 1, ch := 0, id := 16 }
       (headOf e (List.range 17)).engHead 0 = some (0, e) ∧ (headCase (headOf e (List.range 17)) e).2.1 = true)
    ∧ (let e : EEnt := { ctx := 0, op := 9, ra := 1 }
       (headOf e []).engHead 0 = some (0, e) ∧ headCase (headOf e []) e = (false, false, true, false))
    ∧ (let e : EEnt := { ctx := 0, op := 1, ch := 0 }
       let s := (headOf e [0]).modCore 0 (fun k => { k with log := List.replicate 64 { gen := 1, scope := 2, ctx := 0, line := none } })
       s.engHead 0 = some (0, e) ∧ headCase s e = (false, false, false, true)) := by decide +kernel

/-- Each operation in its last beat, and some in an earlier one. -/
theorem witness_ArrayBeats : (∀ e ∈ [(1, 0, 1), (2, 0, 1), (3, 0, 2), (4, 0, 1), (4, 0, 2), (5, 0, 1), (6, 15, 16), (7, 0, 16), (8, 0, 1), (9, 0, 1), (10, 0, 1)],
      let b := (inBeat e.1 e.2.1 e.2.2 false).beatSettle 0
      (b.core 0).mrun.map (fun r => (r.ent.op, r.beat, r.ent.beats, r.waits)) = some (e.1, e.2.1, e.2.2, false)
        ∧ (b.core 0).windowOpen (b.core 0).mwin = true)
    ∧ (List.replicate 256 (3 : Nat)).length = 256 := by decide +kernel

/-- A transfer of the base core, by default from scratchpad to scratchpad. -/
def xfer (op : Nat) (ph : XPhase) (desc : List Dw) (len : Nat) : Xfer :=
  { core := 0, ctx := 0, launch := 0, ch := 0, id := 0, op := op, owner := 1, root := 0x1000, desc := desc, phase := ph, len := len }
def moving (x : Xfer) : State := { base with xfers := [(0, x)] }

/-- A ring at RINGBASE of die 0, enabled or not, of two slots, with its head slot full or empty, in control block 0. -/
def ringState (x : Xfer) (en full : Nat) : State :=
  let s := ({ moving x with dies := [(0, { ready := BitVec.allOnes 39, ringBase := 0x40000 })] } : State)
  let b := s.ringAt x.tdie x.ring
  s.memWrite (dwCells (b + 8) 8 (1 + en * 256) ++ dwCells (s.slotAddr b 0 + 8) 8 full)

theorem witness_TransferSteps :
    (let x := xfer 6 .queued [] 64
     let s := moving x
     Sp.find? s.xfers 0 = some x ∧ x.op = 6 ∧ x.phase = .queued ∧ s.canStart 0 x = true ∧ x.tagCount ≤ Sp.get 0 (s.ctx x.core x.ctx).tagF x.tag)
    ∧ (∀ e ∈ [(0x0, 0x400, some true, some true), (0xFFFC0, 0x400, none, none), (0, 0xFFFC0, some true, none)],
       let x := xfer 1 .running [BitVec.ofNat 64 e.1, BitVec.ofNat 64 e.2.1, 64, 5, 0, 0, 0, 0] 64
       let s := moving x
       x.phase = .running ∧ x.stepLen ≠ 0
         ∧ (match s.xferAt x x.ssp (x.dw 0) x.pos accRead with
            | .ok (r, p) => (match r.xferAt x x.dsp (x.dw 1) x.pos accWrite with
                | .ok (_, q) => decide (e.2.2.1 = some true ∧ e.2.2.2 = some true ∧ x.stepLen ≤ p.n ∧ x.stepLen ≤ q.n)
                | .error _ => decide (e.2.2.1 = some true ∧ e.2.2.2 = none))
            | .error _ => decide (e.2.2.1 = none)) = true)
    ∧ (∀ e ∈ [(0, 0x20000, true), (2 ^ 39 - 1, 2 ^ 40, false)],
       let x := xfer 1 .running [BitVec.ofNat 64 e.2.1, 0x400, 64, 4, 0, 0, 0, 0] 64
       let s := ({ moving x with dies := [(0, { ready := BitVec.ofNat 39 e.1 })] } : State)
       x.phase = .running ∧ x.stepLen ≠ 0
         ∧ (match s.xferAt x x.ssp (x.dw 0) x.pos accRead with
            | .ok _ => false
            | .error f => (f.cause == 0) == e.2.2) = true)
    ∧ (let x := xfer 1 .written [0, 0x400, 64, 0, 0, 0, 0, 0] 64
       x.phase = .written ∧ x.fault = 0 ∧ x.op ≠ 7 ∧ x.op ≠ 8 ∧ (moving x).canStart 0 x = true) := by decide +kernel

/-- send to a ring that is disabled, and to one with a free slot; recv from one with a message. -/
theorem witness_TransferSteps_rings : ∀ e ∈ [(7, 0, 0), (7, 1, 0), (8, 1, 1)],
    let x := xfer e.1 .queued (List.replicate 8 0) 64
    let s := ringState x e.2.1 e.2.2
    let b := s.ringAt x.tdie x.ring
    Sp.find? s.xfers 0 = some x ∧ s.canStart 0 x = true ∧ (s.die x.tdie).fenced = false ∧ (s.die x.tdie).stopped = false
      ∧ s.ringReady b = true ∧ ({ s with dies := [(0, { ringBase := 0x40000 })] } : State).ringReady b = false
      ∧ bitOf (s.ringDw b 1) 8 = decide (e.2.1 = 1) ∧ fld (s.ringDw b 5) 31 0 = fld (s.ringDw b 5) 63 32
      ∧ s.homeByte (s.slotAddr b (fld (s.ringDw b 2) 63 32 % (fld (s.ringDw b 1) 7 0 + 1)) + 8) = BitVec.ofNat 8 e.2.2 := by
  decide +kernel

/-- An encoder command that has waited for 1 ms, and one that has waited longer. -/
theorem witness_TransferSteps_encoder : ∀ e ∈ [(1000, false), (1001, true)],
    let c : EncCmd := { core := 0, ctx := 0, update := false, block := [] }
    let s := ({ base with clusters := [(0, { enc := [c] })], time := e.1 } : State)
    (s.clu 0).enc = [c] ∧ (s.clu 0).encOut = [] ∧ decide (c.since + 1000 < s.time) = e.2
      ∧ (({ base with clusters := [(0, { enc := [c], encOut := [(0, [(0x40, 1)])] })] } : State).clu 0).encOut = [(0, [(0x40, 1)])]
      ∧ (s.clu 0).enc.find? (fun c => decide (c.since + 1000 < s.time)) = (if e.2 then some c else none) := by decide +kernel

/-- A promote-acquire of the dword at 0x20000, which the leaf at 0x3000 maps. -/
def promo (cas : Bool) (target : Nat) : Promo :=
  { ctx := 0, no := 0, target := target, gen := 2, va := 0x20000, pa := 0x20000, width := 64, entry := 0x7F, ad := 0x3000, cas := cas, cmp := 0, new := 0
    rel := none }
def elemStep : SaStep := { core := 0, row := 0, elem := 0, add := 5, sat := false, nan := false, src := 1 }
/-- A space-2 store of core 0 to a byte of core 1. -/
def s2Store (v : Byte) : Nat × StoreAcc := (0, { space := 2, core := 1, parts := [{ bytes := [(0, v)] }] })

theorem witness_OrderSteps :
    (∀ g ∈ [0, 1], let s := coreIs (fun k => { k with preqs := [(1, g)] })
       s.answers 0 = true ∧ (s.core 0).preqs = [(1, g)] ∧ (s.core 0).drain = none ∧ (if g = 0 then g ≤ (s.core 0).drained else (s.core 0).drained < g))
    ∧ (let s := coreIs (fun k => { k with drain := some 1 })
       (s.core 0).drain = some 1 ∧ ((s.drain 0 1).core 0).preqs = [] ∧ ((s.drain 0 1).core 0).log.length < 64)
    ∧ (let s := coreIs (fun k => { k with promos := [promo false 1] })
       (s.core 0).promos.find? (s.acked 0) = some (promo false 1) ∧ (promo false 1).cas = false)
    ∧ (let s := coreIs (fun k => { k with promos := [promo true 1] })
       (s.core 0).promos.find? (s.acked 0) = some (promo true 1) ∧ (promo true 1).cas = true
         ∧ ((s.modCore 0 (fun k => { k with promos := k.promos.erase (promo true 1) })).promoAgain 0 (promo true 1)).1.promoTag 0
            ((promo true 1).piece 0) = none)
    ∧ (let s := ({ coreIs (fun k => { k with promos := [promo true 300] }) with dies := [(1, { stopped := true })], time := 100 } : State)
       (s.core 0).promos.find? (fun p => !(s.answers p.target) && decide (p.since + 100 ≤ s.time)) = some (promo true 300) ∧ (promo true 300).target ≠ 0)
    ∧ (let s := ({ base with saSteps := [elemStep] } : State)
       s.saSteps[0]? = some elemStep ∧ s.saSteps.find? (fun y => y.src == elemStep.src && y.core == elemStep.core && y.row == elemStep.row) = some elemStep)
    ∧ (let e := s2Store 1
       let s := ({ base with s2 := [e] } : State)
       s.s2[0]? = some e ∧ (∀ f, f ∈ s.s2.take 0 → s2Clash e f = false) ∧ e.2.rel = none ∧ e.2.space ≠ 0)
    ∧ ({ base with s2 := [s2Store 1, s2Store 2] } : State).s2 = [s2Store 1, s2Store 2] ∧ s2Clash (s2Store 2) (s2Store 1) = true
    ∧ (({ base with xinvs := List.replicate 15 .all } : State).xinvs.length < 16)
    ∧ (({ base with xinvs := [.owner 3, .page 1 5] } : State).xinvs = .owner 3 :: [.page 1 5]) := by decide +kernel

/-- A queue with a descriptor and packets; a launch that waits. -/
def waiting (f : Launch → Launch) : State :=
  { State.reset.loaded with
    cores := [], launches := [(0, f { loadLaunch with phase := .waiting, groups := [] })], clusters := [(0, {})] }

/-- Queue 0 of die 0 is served with a ring of 16 packets at 0x50000, one of which has been announced, and a save region. -/
def queueState : State :=
  { base.memWrite (dwCells 0x50000 8 1) with
    dies := [(0, { ready := BitVec.allOnes 39, qdesc := [(0, 0x50000), (1, 0x1000), (2, 0x80104), (7, 2 ^ 30)], qstate := [(0, { widx := 1 })] })] }

theorem witness_LaunchSteps_packetRead :
    let s := queueState
    let d := s.die 0
    let ag := supervisorAgent (d.qowner 0) (d.ptroot 0)
    let va := (d.rbase 0 + 64 * (d.readidx 0 % 2 ^ d.sz 0)) % 2 ^ 64
    s.lpReady 0 = true ∧ d.served 0 = true ∧ (s.qs 0 0).stalled = false ∧ (s.qs 0 0).barrier = none ∧ d.readidx 0 < (s.qs 0 0).widx
      ∧ (match State.readV ag accRead va 64 s.l2Invalidate with
         | .ok (r, bs) => decide ((bs.headD 0).toNat % 16 ≠ 0) && !r.recordWaits (packetOf 0 0 (d.rights 0) (dwordsOf 8 bs) none)
             && (r.writeV ag va [bs.headD 0 &&& 0xF0]).toOption.isSome
         | .error _ => false) = true := by decide +kernel

/-- A barrier packet whose address is mapped, and one whose address is not. -/
theorem witness_LaunchSteps_barrierPoll : ∀ e ∈ [(0x50000, true), (2 ^ 40, false)],
    let l : Launch := { barrier := true, owner := 1, root := 0x1000, packet := [3, BitVec.ofNat 64 e.1, 0, 0, 0, 0, 0, 0] }
    let s := ({ queueState with launches := [(5, l)], dies := [(0, { ready := BitVec.allOnes 39, qstate := [(0, { barrier := some 5 })] })] } : State)
    (s.qs 0 0).barrier = some 5 ∧ s.lpReady 0 = true ∧ s.ordOk 5 l = true ∧ s.signalWaits l = false ∧ s.launch 5 = l
      ∧ (State.readV l.agent accRead (dwOf l.packet 1) 8 s.l2Invalidate).toOption.isSome = e.2 := by decide +kernel

theorem witness_LaunchSteps :
    (∀ e ∈ [(1, 0), (1, 7), (8, 0)], 3 < 4 ∧ 255 < 256 ∧ 1 ≤ e.1 ∧ e.1 + e.2 ≤ 8)
    ∧ ((waiting id).lpReady 0 = true ∧ (waiting id).waitsPlace (0, (waiting id).launch 0) = true ∧ (waiting id).itsTurn (0, (waiting id).launch 0) = true
        ∧ (waiting id).sectionWaits ((waiting id).launch 0) = false ∧ ((waiting id).placement ((waiting id).launch 0)).isSome = true)
    ∧ (let s := coreIs (fun k => { k with ctxs := [(0, { phase := .ended })] })
       (s.core 0).launch ≠ none ∧ (s.core 0).groupDone = false ∧ (s.core 0).ctxs ≠ [] ∧ (s.core 0).allHalted = true ∧ (s.core 0).mq = []
         ∧ (s.core 0).eq = [] ∧ (s.core 0).mrun = none ∧ (s.core 0).promos = [] ∧ s.coreQuiet 0 = true)
    ∧ (let s := coreIs (fun k => { k with groupDone := true })
       (s.die 0).fenced = false ∧ s.launchOver 0 (s.launch 0) = true ∧ s.signalWaits (s.launch 0) = false ∧ (s.launch 0).phase ≠ .waiting)
    ∧ (let s := ({ queueState with susp := .suspending } : State)
       (s.launch 0).groups ≠ [] ∧ (s.launch 0).status = 0 ∧ (s.launch 0).phase = .running ∧ s.mustPreempt 0 (s.launch 0) = true
         ∧ s.recordsFit 0 (s.launch 0) = true)
    ∧ (let s := ({ base with susp := .suspending } : State)
       s.mustPreempt 0 (s.launch 0) = true ∧ s.recordsFit 0 (s.launch 0) = false ∧ (s.hardTrip = true ∨ s.susp = .suspending))
    ∧ (let s := ({ base with launches := [(0, { loadLaunch with phase := .stopping })] } : State)
       (s.launch 0).groups ≠ [] ∧ (s.launch 0).status = 0 ∧ (s.launch 0).phase = .stopping ∧ s.quiet 0 (s.launch 0) = true)
    ∧ (let s := ({ base with cores := [], launches := [(0, { loadLaunch with phase := .preempted, saved := [(0, loadCore)] })] } : State)
       s.lpReady (s.launch 0).die = true ∧ s.canResume (s.launch 0) = true ∧ s.itsTurn (0, s.launch 0) = true)
    ∧ (let s := ({ base with launches := [(0, { loadLaunch with cls := 1, energy := 15625001, packet := [1, 0, 0, 0, 0, 1, 0, 0] })], time := 1000 } : State)
       (s.launch 0).phase = .running ∧ (s.launch 0).groups ≠ [] ∧ (s.die 0).quantumOf 1 ≠ 0 ∧ (s.launch 0).placedAt + (s.die 0).quantumOf 1 ≤ s.time
         ∧ (s.launch 0).ebudget ≠ 0 ∧ (s.launch 0).ebudget * 15625000 < (s.launch 0).energy ∧ (s.launch 0).origin = none)
    ∧ (let s := ({ base with launches := [(0, { loadLaunch with origin := some (1, 4), energy := 1, packet := [1, 0, 0, 0, 0, 1, 0, 0] })] } : State)
       (s.launch 0).origin = some (1, 4) ∧ (s.launch 0).ebudget ≠ 0 ∧ (s.launch 0).energy ≠ 0) := by decide +kernel

/-- Packets for each check of R367, and what passes; the kernel record lies at 0xFFE0. -/
theorem witness_PacketsAndStarts_fields : ∀ pk ∈ [([1, 0x10000, 0, 2 ^ 26, 0, 0, 0, 0] : List Dw), [0x21003, 0, 0, 0, 0, 0, 0, 0],
      [1, 0x10000, 0, 5, 0, 0, 0, 0], [2, 0, 0, 4, 0, 0, 0, 0]],
    pk.length = 8 ∧ Claims.bits (Claims.dw pk 0) 3 0 ≠ 0 ∧ Claims.badFields pk := by
  unfold Claims.badFields
  decide +kernel
theorem witness_PacketsAndStarts_good : ∀ pk ∈ [([1, 0x10000, 4, 0x810909, 0, 0, 0, 0] : List Dw), [2, 0x10004, 0, 0, 0, 0, 0, 0],
      [1, 0x10010, 0, 0x810909, 0, 0, 0, 0], [2, 0x10000, 0, 3, 0, 0, 16, 0], [1, 0, 0, 0x010909, 0, 0, 0, 0]],
    ¬ Claims.badFields pk := by
  unfold Claims.badFields
  decide +kernel
theorem witness_PacketsAndStarts_addresses :
    (∀ pk ∈ [([1, 0x10000, 4, 0x810909, 0, 0, 0, 0] : List Dw), [2, 0x10004, 0, 0, 0, 0, 0, 0], [1, 0x10000, 0, 0x810909, 0, 0, 8, 0]],
      Claims.badAddresses pk)
    ∧ (∀ pk ∈ [([1, 0x10010, 0, 0x810909, 0, 0, 0, 0] : List Dw), [2, 0x10000, 0, 3, 0, 0, 16, 0], [1, 0, 0, 0x010909, 0, 0, 0, 0]],
      ¬ Claims.badAddresses pk) := by
  unfold Claims.badAddresses
  decide +kernel
theorem witness_PacketsAndStarts_record :
    let pk : List Dw := [1, 0x10000, 0, 0x810909, 0, 0, 0, 0]
    let ag : Agent := { core := none, owner := 1, root := 0x1000, priv := true }
    ¬ Claims.someZero pk ∧ (State.readV ag accRecord 0xFFE0 32 base).toOption.isSome = true
      ∧ (State.readV ag accRecord (2 ^ 40) 32 base).toOption.isNone = true
      ∧ Claims.badRecord [2 ^ 32, 0, 0, 0] ∧ Claims.tooMuch pk [0, 0, 0, 0] 1 ∧ ¬ Claims.badRecord [0x100000, 0, 0, 0]
      ∧ ¬ Claims.tooMuch pk [0x100000, 0, 0, 0] 1 := by
  unfold Claims.someZero Claims.badRecord Claims.tooMuch
  decide +kernel
/-- A launch whose signal is mapped, one whose signal is not, and one without; the scratchpad of a core that starts a group. -/
theorem witness_PacketsAndStarts :
    (∀ e ∈ [(0x50000, true), (2 ^ 40, false)],
      (State.writeV base { core := none, owner := 1, root := 0x1000, priv := true } e.1 (bytesOf 16 5)).toOption.isSome = e.2)
    ∧ ({ loadLaunch with packet := [1, 0, 0, 0, 0, 0, 0, 0] } : Launch).origin = none ∧ loadLaunch.noSignal = false
    ∧ Sp.wf ({} : QState) (queueState.die 0).qstate = true
    ∧ ({ core := 0, logical := 0, clu := 0 } : Group).twin = none ∧ Memory.wf (base.core 0).scratch = true := by decide +kernel

/-- A cluster 63 whose test of core 16 stands in st. -/
def testing (st : TestState) : State := { State.reset with clusters := [(63, { tstate := st, tcore := 16, before := 1 })] }

theorem witness_MaintenanceSteps_test :
    (∀ st ∈ [TestState.idle, .pass, .fail, .aborted], let c := (testing st).clu 63
       (c.tstate = .idle ∨ c.tstate = .pass ∨ c.tstate = .fail ∨ c.tstate = .aborted) ∧ c.pc 16 = 1 ∧ c.pc 0 = 0 ∧ ¬(2 ≤ c.pc 0))
    ∧ (2 ≤ (({ State.reset with clusters := [(63, { pcstate := 0x1_0000_0002 })] } : State).clu 63).pc 0)
    ∧ (∀ st ∈ [TestState.held, .running, .pass, .draining], ((testing st).clu 63).tstate = st)
    ∧ ((testing .draining).core (coreKey 63 16)).launch = none ∧ (testing .draining).parkedOn (coreKey 63 16) = false
    ∧ (∀ p ∈ [0, 16], let s := ({ testing .running with clusters := [(63, { tstate := .running, tcore := p })], time := 200 } : State)
       let c := s.clu 63
       c.tstate = .running ∧ c.tstart + 200 ≤ s.time ∧ (c.logicalOf p).isSome = decide (p = 0) ∧ ((c.setPc p 2).pc 16 = 1 ↔ p = 0))
    ∧ (({ State.reset with clusters := [(63, { repair := true })] } : State).clu 63).repair = true := by decide +kernel

theorem witness_MaintenanceSteps_boot : State.reset.booted = false ∧ (State.reset.flashImage 0).valid = true
    ∧ State.reset.pickImage = some 0 ∧ ({ State.reset with flash := [(0, { signed := false }), (1, { badCrc := [3] })] } : State).pickImage = none
    ∧ State.reset.image = none ∧ ({ base with powerOff := true } : State).susp ≠ .suspended
    ∧ (let s := ({ State.reset with booted := true, image := some {} } : State)
       s.image = some {} ∧ s.booted = true ∧ s.powerOff = false ∧ 3 < 4 ∧ 38 < 39 ∧ s.dieDown 3 = false ∧ s.susp = .running
         ∧ bitOf (s.die 3).ready.toNat 38 = false ∧ bitOf (s.die 3).ready.toNat 16 = false ∧ bitOf (s.die 3).ready.toNat 0 = false) := by
  decide +kernel

/-- What the streamer finds at its position: a hole, a clean page, a dirty page that it may read. -/
def ckpFinds (s : State) : Nat :=
  match s.leafFrom s.ckp.pos 5 0 s.ckp.root with
  | .hole _ => 0
  | .leaf lvl e ea =>
      if pteD (s.homeDw (adAddr lvl e ea)) then
        (if paOff (leafPa lvl e s.ckp.pos) = false ∧ leafCheck s.domain (supervisorAgent s.ckp.owner s.ckp.root) accRead lvl e ea = none
           ∧ ({ s with ckp := { s.ckp with pos := s.ckp.pos / leafSize lvl e * leafSize lvl e + leafSize lvl e } } : State).sendWaits e
              (max (s.ckp.pos / leafSize lvl e * leafSize lvl e) s.ckp.vbase)
              (min (s.ckp.pos / leafSize lvl e * leafSize lvl e + leafSize lvl e) (s.ckp.vbase + s.ckp.vlen)) (leafPa lvl e s.ckp.pos) = false then 2 else 3)
      else 1
  | .fault _ _ => 4
  | .awaited => 5
/-- Device 0 runs a pass from pos on over [0, len) of OWNER 1's space, whose leaf has these bits. -/
def ckpAt (pos len leaf : Nat) (quies : List (Nat × Nat × Nat)) : State :=
  { base.homeWrite (dwCells 0x3000 8 leaf) with
    ckp := { active := true, vbase := 0, vlen := len, root := 0x1000, owner := 1, pos := pos, pass := 2, quies := quies } }

theorem witness_MaintenanceSteps_streamer :
    (∀ e ∈ [(2 ^ 40, 2 ^ 41, 0x7F, 0), (0, 64, 0x3F, 1), (0, 64, 0x7F, 2)], let s := ckpAt e.1 e.2.1 e.2.2.1 []
       s.streamerOn = true ∧ s.ckp.active = true ∧ s.ckp.stop = false ∧ s.ckp.next = none ∧ s.ckp.owed = []
         ∧ s.ckp.pos < s.ckp.vbase + s.ckp.vlen ∧ ckpFinds s = e.2.2.2)
    ∧ ckpFinds ({ ckpAt 0 64 0x7F [] with dies := [(0, { ready := 0 })] } : State) = 5
    ∧ (∀ q ∈ [[], [(0, 0x40, 2)]], let s := ckpAt 4096 4096 0x7F q
       s.streamerOn = true ∧ s.ckp.active = true ∧ s.ckp.vbase + s.ckp.vlen ≤ s.ckp.pos ∧ s.ckp.next = none ∧ s.ckp.stop = false
         ∧ s.ckp.quies = q ∧ s.ckp.pass = 2) := by decide +kernel

/-- Die and island at the ends of their ranges, in the states that each step asks for. -/
theorem witness_ErrorAndPowerSteps : (0 < 4 ∧ 3 < 4) ∧ isHbm (32 * 0) = true ∧ paNorm (32 * 0) = 32 * 0 ∧ State.reset.poison.contains 0 = false
    ∧ (State.reset.core 0).launch = none ∧ (State.reset.core 0).scratchPoison.contains 0 = false ∧ 32 * 0 < (State.reset.core 0).scratchSize
    ∧ State.reset.powerOff = false ∧ State.reset.dieDown 3 = false ∧ State.reset.hardTrip = false ∧ (State.reset.die 3).island 3 = {}
    ∧ (∀ d, d < 4 → bitOf (({ State.reset with dies := [(3, { heard := 0xF })] } : State).die 3).heard.toNat d = true)
    ∧ (let s := ({ State.reset with dies := [(3, { misses := [(0, 2)] })] } : State)
       (s.die 0).fenced = false ∧ bitOf (s.die 3).heard.toNat 0 = false ∧ 2 ≤ Sp.get 0 (s.die 3).misses 0)
    ∧ (let s := ({ base with dies := [(0, { islands := [(3, { oc := true, soft := true, hot := true, recovering := true })] })], time := 10000 } : State)
       let x := (s.die 0).island 3
       x.oc = true ∧ x.ocAt + 100 ≤ s.time ∧ (∀ j, j < 3 → ((s.die 0).island j).oc = false) ∧ s.powerVictim 0 = some 0 ∧ x.soft = true
         ∧ x.hot = true ∧ x.turnAt + 1000 ≤ s.time ∧ x.recovering = true ∧ x.turnAt + 10000 ≤ s.time)
    ∧ (∀ u ∈ [SuspState.running, .suspended], ({ base with susp := u } : State).susp = u) := by decide +kernel

/-- An orbit item of the agenda, with the port's number or an older one. -/
def portItem (seq : Nat) : State :=
  { base with agenda := [.orbit 15 seq (.load 0 8)], orbitRx := [(15, 7)], dies := [(0, { ready := BitVec.allOnes 39 }), (3, { ready := BitVec.allOnes 39 })] }

theorem witness_SuspendAndHostSteps : State.reset.susp = .running
    ∧ (let s := ({ State.reset with susp := .suspending } : State)
       s.susp = .suspending ∧ s.allSaved = true ∧ s.memOk = true
         ∧ ({ s with dies := [(0, { ready := BitVec.allOnes 39 })] } : State).regionReady (s.suspBase * 4096) 1048576 = true)
    ∧ (∀ e ∈ [(({ ready := BitVec.allOnes 39 } : Die), true, false), ({ ready := BitVec.allOnes 39, fenced := true }, true, true), ({}, false, false)],
       let s := ({ base with dies := [(0, e.1)] } : State)
       s.stackReady 0 = e.2.1 ∧ s.deadHome 0 = e.2.2 ∧ (∀ i, i < 8 → s.lostHome (0 + i) = e.2.2))
    ∧ (∀ pk ∈ [([2, 0x10000, 0, 3, 0, 0, 16, 0] : List Dw), [1, 0x10000, 0, 0x810909, 0, 0, 0, 0]],
       queueState.recordWaits (packetOf 0 3 ((queueState.die 0).rights 0) pk (some (4, 5))) = false)
    ∧ (let s := ({ State.reset with susp := .resuming, dies := [(0, { ready := BitVec.allOnes 39 }), (1, { ready := BitVec.allOnes 39 }), (2, { stopped := true }),
         (3, { ready := BitVec.allOnes 39 })] } : State)
       s.susp = .resuming ∧ (∀ d, d < 4 → s.dieDown d = true ∨ bitOf (s.die d).ready.toNat 32 = true)
         ∧ s.launches.all (fun l => !(s.mustResume l.2)) = true)
    ∧ (∀ e ∈ [(false, false), (true, true), (true, false)],
       let s := ({ base with msixOn := e.1, msixMask := e.2, msixTable := [(1, 0)] } : State)
       s.msixOn = e.1 ∧ s.msixMasked 0 = e.2)
    ∧ (0x7FF8 < 0x8000 ∧ 0x7FF8 % 8 = 0) ∧ (8 + 8 ≤ base.bar2 ∧ isHbm (Config.devId * 2 ^ 46 + 8) = true)
    ∧ isHbm 0 = true ∧ (∀ n ∈ [1, 8], 1 ≤ n ∧ n ≤ 8 ∧ (2 ^ 39 - 8) % 2 ^ 39 + n ≤ 2 ^ 39) ∧ isHbm (2 ^ 39 - 8) = true ∧ base.memOk = true
    ∧ base.l2.length + 2 < 12288 ∧ base.orbitOpen = true ∧ 255 < 256 ∧ paReg 0 = false ∧ paReg (2 ^ 45) = true
    ∧ ((base.ownLine 0).orbitRead 0 8).2 = false ∧ ((({ base with poison := [0] } : State).ownLine 0).orbitRead 0 8).2 = true
    ∧ queueState.lpUp 0 = true
    ∧ (∀ q ∈ [7, 6], let s := portItem q
       s.agenda = [.orbit 15 q (.load 0 8)] ∧ s.portOpen (15 % 16) = true ∧ s.accepts (.load 0 8) = true
         ∧ (q = Sp.get 0 s.orbitRx (15 % 16) ↔ q = 7))
    ∧ (let s := ({ base with dies := [(1, { ready := BitVec.ofNat 39 (2 ^ 32 + 2 ^ 36) })] } : State)
       s.orbitOpen = true ∧ s.lpUp 3 = false ∧ s.lpUp 1 = true ∧ (∀ e, e < 1 → s.lpUp e = false) ∧ s.portOpen 15 = false) := by decide +kernel

/-- A phaser in phase 1 with a member of context 0 of core 0, in the mode and with NS as given. -/
def inPhase (mode ns : Nat) : Phaser :=
  { phase := 1, members := [{ core := 0, ctx := 0, mode := mode, j := 0, ns := ns, nw := 1 }, { core := 0, ctx := 1, mode := mode, j := 0, ns := 1, nw := 1 }] }
def one (ns : Nat) : Phaser := { phase := 1, members := [{ core := 0, ctx := 0, mode := 3, j := 0, ns := ns, nw := 1 }] }
def withPhaser (f : Phaser) : State := base.setPhaser 0 f
/-- The first member after its signal. -/
def raised (f : Phaser) (p0 p1 : Nat) : Phaser := { f.modMember 0 0 (fun m => { m with ns := m.ns + 1 }) with pend0 := p0, pend1 := p1 }

theorem witness_PhaserOperations : (base.phaser 0).member? 0 0 = none
    ∧ (∀ ns ∈ [0, 1, 2], (((withPhaser (inPhase 3 ns)).phaser 0).member? 0 0).map (fun m => (m.signals, m.waits, m.ns)) = some (true, true, ns))
    ∧ (raised (inPhase 3 1) 0 0).ready = false ∧ (raised (one 1) 0 0).ready = true ∧ (State.reset.completePhase (raised (one 1) 0 0)).ready = false
    ∧ (raised (inPhase 3 2) 0 64).ready = false ∧ (0 : Nat) + (2 ^ 40 - 1) < 2 ^ 40 ∧ 2 ^ 40 ≤ (0 : Nat) + 2 ^ 40
    ∧ (∀ e ∈ [(1, true, false), (2, false, true), (3, true, true)], (((withPhaser (inPhase e.1 1)).phaser 0).member? 0 0).map (fun m => (m.signals, m.waits))
        = some e.2)
    ∧ ((inPhase 3 1).modMember 0 0 (fun m => { m with ns := 2, leaving := true })).ready = false
    ∧ (let f : Phaser := { inPhase 3 1 with pend0 := 64 }
       f.members ≠ [] ∧ (2 : Nat) ≠ f.phase ∧ 1 = f.phase ∧ 64 ≤ f.pend0 ∧ f.anyFor f.phase = true ∧ f.pend0 < 65
         ∧ ({ f with pend0 := f.pend0 - 64 } : Phaser).ready = false
         ∧ (State.reset.completePhase { f with pend0 := 0, overrun := min 0xFFFF (f.overrun + (65 - f.pend0)) }).ready = false) := by
  decide +kernel

/-! Registers, encoding and the step. -/

theorem witness_RegisterFile : (∀ r ∈ [0x00, 0x80, 0xA0], r ≤ 0xA3 ∧ (Claims.hardWired r).isSome = true)
    ∧ (∀ r ∈ [0x01, 0x3F, 0x40, 0x7F, 0x81, 0x8F, 0x90, 0x9F, 0xA1, 0xA3], r ≤ 0xA3 ∧ Claims.hardWired r = none)
    ∧ Claims.bankOk (base.ctx 0 0).bank = true := by decide +kernel

theorem witness_StoresStayCanonical : base.memOk = true ∧ goesOn (step (base.withBundle { m0 := 0x000402 })) = true
    ∧ (base.withBundle { m0 := 0x000402 }).memOk = true := by decide +kernel

theorem witness_DecodeEncode : ∀ i ∈ [Instr.registerMove p1 2, addI, .accrd 0 1 255, .ckpStatus 3, .bundleIssue swapBundle],
    i.wf = true ∧ (encode i).isSome = true ∧ i ≠ .matrixNop ∧ i ≠ .engineNop := by decide +kernel

theorem witness_StepRunsDecoded :
    let s := base.withBundle { m0 := 0x000402 }
    let r := ({ s with agenda := [], focus := 0 } : State)
    s.agenda = [.focus 0] ∧ (r.core 0).run = some 0 ∧ (r.core 0).frozen = none ∧ (r.core 0).arrayBehind = false ∧ (r.core 0).stalled = false
      ∧ (r.ctx 0 0).asyncDue = false ∧ r.fetchMisses.contains 0 = false
      ∧ (match (r.fetch 0 0).2 with
         | .bundle b => decide (b = { m0 := 0x000402 })
         | _ => false) = true := by decide +kernel

/-! Words. -/

/-- The words of the two empty slots. -/
theorem test_decode_nops : (decodeMat 0).toOption = some .matrixNop ∧ (decodeEng 0 0 0).toOption = some .engineNop := by decide +kernel

/-! ### Ill-formed terms are refused -/

/-- The head of a move with source v. -/
def hd (v : BitVec 10) : MoveHead := { w := 0, inv := 0, grd := 0, src := v }
def ph (v : BitVec 10) : PlainHead := { inv := 0, grd := 0, src := v }

theorem test_wf_sources : srcOk 0x0FF = false ∧ srcOk 0x110 = false ∧ srcOk 0x300 = false ∧ (hd 0x0FF).ok = false ∧ (ph 0x110).ok = false := by
  decide +kernel
theorem test_wf_moves : regMoveOk (ph 1) 0xA4 = false ∧ regMoveOk (ph 0) 0 = false ∧ portMoveOk (ph 1) 12 = false := by decide +kernel
theorem test_wf_slots : tileBeatsOk 14 = false ∧ immOk 256 = false ∧ immWideOk 768 = false ∧ phaserOk 1 1 = false ∧ modeOk 0 = false := by
  decide +kernel
theorem test_wf_agents : coreOk 1088 = false ∧ ctxOk 4 = false ∧ pairOk 512 = false ∧ cluOk 64 = false ∧ dieOk 4 = false ∧ queueOk 256 = false
    ∧ islandOk 4 = false ∧ levelOk 4 = false ∧ phaserKeyOk 2048 = false ∧ phaserKeyOk 5120 = false ∧ readyOk 39 = false := by decide +kernel
theorem test_wf_pieces : notifyOk 0 0 = false ∧ notifyOk 4 5 = false ∧ pieceOk 0 0 = false ∧ pieceOk 6 4 = false
    ∧ (HostReq.barRead (2 ^ 28) 8).ok = false ∧ (HostReq.memWrite (2 ^ 52) 8 0).ok = false ∧ (PoisonPlace.scratch 0 32768).ok = false
    ∧ (PoisonPlace.tileRow 0 8 0).ok = false ∧ (OrbitMsg.fetchAdd 4 8 1).ok = false ∧ (OrbitMsg.notify 4 0 0).ok = false := by decide +kernel
theorem test_wf_bundles : bundleOk { m0 := 0x000402 } = false ∧ bundleOk { mat := 0x100000 } = false ∧ (Instr.xinvPage 0 (2 ^ 52)).wf = false := by
  decide +kernel

/-! ### Worked examples of the manual -/

/-- The value that an instruction puts on its way, in a step of the base core. -/
def gives (i : Instr) (s : State) : Option Val :=
  match exec i s with
  | .next t => ((t.ctx 0 0).flight.getLast?).bind (·.val)
  | _ => none

/-- With 3 in sx0.a, s5 -> sx0.sub computes s5 - 3 (the text before R122); bfx and bfi of 0x12345678 with y = 0x308 (after R124). -/
theorem test_sx_examples : gives (.sxSub h1 0) (port 0 5 3 0 0) = some (.s 2) ∧ gives (.sxBfx h1 0) (port 0 0x12345678 0x308 0 0) = some (.s 0x456)
    ∧ gives (.sxBfi h1 0) (port 0 0x12345678 0x308 0xABC 0) = some (.s 0x123ABC78) := by decide +kernel
/-- R126: -2^63 divided by -1, and a division by zero. -/
theorem test_sm_corners : gives (.smDiv h1) (port 2 (2 ^ 63) (2 ^ 64 - 1) 0 0) = some (.s (BitVec.ofNat 64 (2 ^ 63)))
    ∧ gives (.smRem h1) (port 2 (2 ^ 63) (2 ^ 64 - 1) 0 0) = some (.s 0) ∧ gives (.smDivu h1) (port 2 7 0 0 0) = some (.s (BitVec.allOnes 64))
    ∧ gives (.smRemu h1) (port 2 7 0 0 0) = some (.s 7) := by decide +kernel
/-- R147: trap of CODE 0x42 with a handler: cause 15, position none, the next bundle at UHVEC. -/
theorem test_trap_entry :
    let s := (port 3 0x42 0 0 0).modCtx 0 0 (fun c => { c with sys := { c.sys with uhvec := 0x20000, uhmask := 0xFFFE } })
    (match exec (.trap h1) s with
     | .next t => decide ((t.ctx 0 0).pc = 0x20000 ∧ (t.ctx 0 0).sys.tcause = 0x420F0F ∧ (t.ctx 0 0).inh = true)
     | _ => false) = true := by decide +kernel
/-- R184, R186: the codes of the example of tree order and running order. -/
theorem test_rsum_scan :
    let v : Vec := 0x6800 + 0x3C000000 + 0x3C0000000000 + 0x3C00000000000000
    ((vxResult 4 1 (.v v) 0 0).1 = .v 0x6801 ∧ (vxResult 4 1 (.v v) 0 0).2 = 1)
      ∧ ∀ i ∈ [0, 1, 3, 255], Claims.el 16 i (vxResult 11 1 (.v v) 0 0).1.toV = 0x6800 := by decide +kernel
/-- The example of qnt: three codes of the part and their scale. -/
theorem test_qnt :
    let v : Vec := BitVec.ofNat 4096 (0x40400000 + 0x3E99999A * 2 ^ 32 + 0xBF800000 * 2 ^ 64 + 0x43F00000 * 2 ^ 1024)
    (∀ e ∈ [(0, 0x7C), (1, 0x62), (2, 0xF0), (32, 0x7E), (3, 0)], Claims.el 8 e.1 (vaResult 28 0x40 {} v 0 0).1.toV = e.2)
      ∧ ∀ e ∈ [(0, 0x78), (1, 0x7F), (2, 0)], Claims.el 8 e.1 (vaResult 28 0x8040 {} v 0 0).1.toV = e.2 := by decide +kernel
/-- The example of R241, an add that saturates, in both orders: 32766.99999994 and 32767.5 in steps of 2^-24. -/
theorem test_sa_order :
    let r : SaRow := { header := 8, valid := true, elems := [(7, 0x7FFF800000)] }
    let u := (r.step 7 0x1000000 false false).step 7 (-0x1000000) false false
    let d := (r.step 7 (-0x1000000) false false).step 7 0x1000000 false false
    (Sp.get 0 u.elems 7 = 0x7FFEFFFFFF ∧ u.satf = true) ∧ Sp.get 0 d.elems 7 = 0x7FFF800000 ∧ d.satf = false := by decide +kernel
/-- The check values of R293 and R328 over the ASCII bytes "123456789". -/
theorem test_crcs : crc16 [0x31, 0x32, 0x33, 0x34, 0x35, 0x36, 0x37, 0x38, 0x39] = 0x29B1
    ∧ crc32c [0x31, 0x32, 0x33, 0x34, 0x35, 0x36, 0x37, 0x38, 0x39] = 0xE3069283 := by decide +kernel
/-- Windows of the example at rate 5/3 (R290). -/
theorem test_windows : plWindow 5 11 2 2 = 21 ∧ plWindow 5 10 2 1 = 13 ∧ plWindow 5 6 1 1 = 22 ∧ plWindow 5 6 1 0 = 6 := by
  decide +kernel
/-- A store to the last byte of the scratchpad, and one byte beyond it: PERMISSION with TADDR the first byte outside. -/
theorem test_store_edge :
    (match exec (.stb h1) (port 4 (lastOff 1) 0 0xAB 1) with
     | .next t => decide ((t.core 0).scratch = [(lastOff 1, 0xAB)])
     | _ => false) = true
    ∧ (let s := (port 4 (lastOff 0) 0 0xAB 1).modCtx 0 0 (fun c => { c with sys := { c.sys with uhvec := 0x20000, uhmask := 0xFFFE } })
       (match exec (.stb h1) s with
        | .next t => decide ((t.core 0).scratch = [] ∧ (t.ctx 0 0).sys.tcause = 0x006 ∧ (t.ctx 0 0).sys.taddr = BitVec.ofNat 64 (lastOff 0))
        | _ => false) = true) := by decide +kernel
/-- The first instruction after reset runs: halt ends the context. -/
theorem test_first_step :
    (match step (State.reset.withFetchWord 24 0x000674) with
     | .next t => decide ((t.ctx 0 0).phase = .ended)
     | _ => false) = true := by decide +kernel

end Sys2Proof.Tests
end

section
/-! SUPPORT. The maintenance steps (R154 to R156, R436 to R438, R408, R417, R418): what each command of the test controller, the end of
its pattern, the image, a function that reports ready, and the checkpoint streamer leave behind; then the statement about them. -/

namespace Sys2Proof.Machine

/-! ### Commands of the test controller (R155) -/

/-- The word that carries a command is no longer than a register. -/
theorem commandWord_toNat (v : Dw) {cmd : Nat} (h : cmd < 8) :
    (BitVec.ofNat 64 (v.toNat / 8 * 8 + cmd)).toNat = v.toNat / 8 * 8 + cmd := by
  rw [BitVec.toNat_ofNat, Nat.mod_eq_of_lt (by have := v.isLt; omega)]

/-- The command's own bits lie outside ABORTPRI and PCORE. -/
theorem testFields_command (s : State) (clu : Nat) (v : Dw) {cmd : Nat} (h : cmd < 8) :
    s.testFields clu (BitVec.ofNat 64 (v.toNat / 8 * 8 + cmd)) = s.setClu clu (Claims.ctlWritten (s.clu clu) v) := by
  have hpri : fld (v.toNat / 8 * 8 + cmd) 13 12 = v.toNat / 2 ^ 12 % 4 := by simp only [fld]; omega
  have hcore : fld (v.toNat / 8 * 8 + cmd) 8 4 = v.toNat / 16 % 32 := by simp only [fld]; omega
  simp only [State.testFields, State.modClu, commandWord_toNat v h, hpri, hcore, Claims.ctlWritten]

theorem testCommand_hold (s : State) (clu : Nat) (v : Dw) :
    s.testCommand clu 1 v = (s.setClu clu (Claims.ctlWritten (s.clu clu) v)).testHoldCmd clu := by
  simp [State.testCommand, State.testctlWrite, testFields_command]
theorem testCommand_start (s : State) (clu : Nat) (v : Dw) :
    s.testCommand clu 2 v = (s.setClu clu (Claims.ctlWritten (s.clu clu) v)).testStartCmd clu := by
  simp [State.testCommand, State.testctlWrite, testFields_command]
theorem testCommand_abort (s : State) (clu : Nat) (v : Dw) :
    s.testCommand clu 3 v = (s.setClu clu (Claims.ctlWritten (s.clu clu) v)).testAbortCmd clu := by
  simp [State.testCommand, State.testctlWrite, testFields_command]
theorem testCommand_release (s : State) (clu : Nat) (v : Dw) :
    s.testCommand clu 4 v = (s.setClu clu (Claims.ctlWritten (s.clu clu) v)).testReleaseCmd clu := by
  simp [State.testCommand, State.testctlWrite, testFields_command]

/-- The cluster as HOLD finds it: after a pass the tested core goes back first. -/
def Cluster.beforeHold (c : Cluster) : Cluster := if c.tstate = .pass then c.giveBack else c

section Commands
variable (s : State) (clu : Nat) {c : Cluster}

section Hold
variable (hst : c.tstate = .idle ∨ c.tstate = .pass ∨ c.tstate = .fail ∨ c.tstate = .aborted)
include hst

/-- A spare core is held at once. -/
theorem testHoldCmd_spare (hp : c.ctlCore ≤ 16) (hpc : c.beforeHold.pc c.ctlCore = 1) :
    (s.setClu clu c).testHoldCmd clu = s.setClu clu
      { ({ c.beforeHold with tcore := c.ctlCore, before := 1 } : Cluster).setPc c.ctlCore 3 with tstate := .held } := by
  simp only [Cluster.beforeHold] at hpc ⊢
  have hpc' : ∀ b, Cluster.pc { (if c.tstate = .pass then c.giveBack else c) with tcore := c.ctlCore, before := b } c.ctlCore = 1 :=
    fun _ => hpc
  simp [State.testHoldCmd, hst, hp, hpc, hpc', or_assoc]

/-- A mapped core drains. -/
theorem testHoldCmd_mapped (hp : c.ctlCore ≤ 16) (hpc : c.beforeHold.pc c.ctlCore = 0) :
    (s.setClu clu c).testHoldCmd clu = s.setClu clu { c.beforeHold with tcore := c.ctlCore, before := 0, tstate := .draining } := by
  simp only [Cluster.beforeHold] at hpc ⊢
  have hpc' : ∀ b, Cluster.pc { (if c.tstate = .pass then c.giveBack else c) with tcore := c.ctlCore, before := b } c.ctlCore = 0 :=
    fun _ => hpc
  simp [State.testHoldCmd, hst, hp, hpc, hpc', or_assoc]

end Hold

/-- A core that is neither mapped nor spare, or that does not exist, is refused. -/
theorem testHoldCmd_refused (h : 16 < c.ctlCore ∨ 2 ≤ c.beforeHold.pc c.ctlCore) :
    (s.setClu clu c).testHoldCmd clu = s.setClu clu { c with terr := true } := by
  have hno : ¬(c.ctlCore ≤ 16 ∧ (c.beforeHold.pc c.ctlCore = 0 ∨ c.beforeHold.pc c.ctlCore = 1)) := by omega
  simp only [Cluster.beforeHold] at hno
  simp only [State.testHoldCmd, State.testErr, State.modClu, State.clu_setClu, State.setClu_setClu, Bool.and_eq_true, decide_eq_true_eq]
  exact if_neg fun ⟨⟨_, hp⟩, hpc⟩ => hno ⟨hp, hpc⟩

theorem testStartCmd_held (h : c.tstate = .held) :
    (s.setClu clu c).testStartCmd clu = s.setClu clu { c with tstate := .running, tstart := s.time, elapsed := 0 } := by
  simp [State.testStartCmd, h]

theorem testAbortCmd_active (h : c.tstate = .draining ∨ c.tstate = .held ∨ c.tstate = .running) :
    (s.setClu clu c).testAbortCmd clu = (s.setClu clu c).abortTest clu := by
  simp [State.testAbortCmd, h]

theorem testReleaseCmd_tested (h : c.tstate = .held ∨ c.tstate = .pass) :
    (s.setClu clu c).testReleaseCmd clu = s.setClu clu { c.giveBack with tstate := .idle } := by
  simp [State.testReleaseCmd, h]

end Commands

/-! ### A core that starts anew, and the abort of a test (R156) -/

@[simp] theorem core_resetCore (s : State) (k : Nat) : (s.resetCore k).core k = { preqs := (s.core k).preqs } :=
  State.core_setCore s k _
theorem core_resetCore_ne (s : State) {k j : Nat} (h : j ≠ k) : (s.resetCore k).core j = s.core j :=
  State.core_setCore_ne s k j _ h

section Abort
variable (s : State) (clu : Nat) (c : Cluster)

theorem abortTest_clu : ∃ el, ((s.setClu clu c).abortTest clu).clu clu = { c.giveBack with tstate := .aborted, elapsed := el } :=
  ⟨_, by simp only [State.abortTest, State.clu_setClu]; rfl⟩
theorem abortTest_mem : ((s.setClu clu c).abortTest clu).mem = s.mem := by
  simp only [State.abortTest]; split <;> rfl

/-- A core that still drains runs its launch on. -/
theorem abortTest_cores_of_draining (h : c.tstate = .draining) : ((s.setClu clu c).abortTest clu).cores = s.cores := by
  simp [State.abortTest, h]
theorem abortTest_core_tested (h : c.tstate ≠ .draining) :
    ((s.setClu clu c).abortTest clu).core (coreKey clu c.tcore) = { preqs := (s.core (coreKey clu c.tcore)).preqs } := by
  simp [State.abortTest, h, Cluster.testCore]
theorem abortTest_core_ne {k : Nat} (h : k ≠ coreKey clu c.tcore) : ((s.setClu clu c).abortTest clu).core k = s.core k := by
  by_cases hd : c.tstate = .draining
  · simp [State.abortTest, hd]
  · simp [State.abortTest, hd, Cluster.testCore, core_resetCore_ne _ h]

end Abort

/-! ### The end of a drain and of the pattern (R155, R156) -/

/-- A core that no launch holds, and that none has to come back to, has ended its last context. -/
theorem coreEnded_of_free {s : State} {core : Nat} (hl : (s.core core).launch = none) (hp : s.parkedOn core = false) :
    s.coreEnded core = true := by
  simp [State.coreEnded, hl, hp]

theorem testDrained_of_ended {s : State} {clu : Nat} (hst : (s.clu clu).tstate = .draining)
    (he : s.coreEnded (coreKey clu (s.clu clu).tcore) = true) :
    s.testDrained clu = s.setClu clu { (s.clu clu).setPc (s.clu clu).tcore 3 with tstate := .held } := if_pos ⟨hst, he⟩

theorem setPc_cmapLo (c : Cluster) (p v : Nat) : (c.setPc p v).cmapLo = c.cmapLo := rfl
theorem setPc_cmapHi (c : Cluster) (p v : Nat) : (c.setPc p v).cmapHi = c.cmapHi := rfl
theorem setPc_runs (c : Cluster) (p v : Nat) : (c.setPc p v).runs = c.runs := rfl
@[simp] theorem setEntry_pcstate (c : Cluster) (n v : Nat) : (c.setEntry n v).pcstate = c.pcstate := by
  unfold Cluster.setEntry; split <;> rfl
@[simp] theorem setEntry_runs (c : Cluster) (n v : Nat) : (c.setEntry n v).runs = c.runs := by
  unfold Cluster.setEntry; split <;> rfl

/-- The map that a changed entry gives depends on the map alone. -/
theorem setEntry_map_congr {c d : Cluster} (hlo : c.cmapLo = d.cmapLo) (hhi : c.cmapHi = d.cmapHi) (n v : Nat) :
    (c.setEntry n v).cmapLo = (d.setEntry n v).cmapLo ∧ (c.setEntry n v).cmapHi = (d.setEntry n v).cmapHi := by
  unfold Cluster.setEntry Cluster.entry
  split <;> simp [hlo, hhi]

section Retire
variable {c : Cluster}

/-- A core that the map does not name is retired, and the map stays. -/
theorem retire_unnamed (h : c.logicalOf c.tcore = none) : c.retire = c.setPc c.tcore 2 := by
  simp [Cluster.retire, h]
theorem retire_unnamed_fields (h : c.logicalOf c.tcore = none) : c.retire.pcstate = (c.setPc c.tcore 2).pcstate
    ∧ c.retire.cmapLo = c.cmapLo ∧ c.retire.cmapHi = c.cmapHi := by
  rw [retire_unnamed h]
  exact ⟨rfl, setPc_cmapLo c c.tcore 2, setPc_cmapHi c c.tcore 2⟩
/-- The spare core takes the place of a retired core that the map names. -/
theorem retire_spare {n : Nat} (h : c.logicalOf c.tcore = some n) (h16 : (c.setPc c.tcore 2).pc 16 = 1) :
    c.retire = ((c.setPc c.tcore 2).setPc 16 0).setEntry n 16 := by
  simp [Cluster.retire, h, h16]
/-- Without a spare core that place stays empty. -/
theorem retire_empty {n : Nat} (h : c.logicalOf c.tcore = some n) (h16 : (c.setPc c.tcore 2).pc 16 ≠ 1) :
    c.retire = (c.setPc c.tcore 2).setEntry n 31 := by
  simp [Cluster.retire, h, h16]

section RetireNamed
variable {n : Nat} (h : c.logicalOf c.tcore = some n)
include h

theorem retire_spare_fields (h16 : (c.setPc c.tcore 2).pc 16 = 1) :
    c.retire.pcstate = ((c.setPc c.tcore 2).setPc 16 0).pcstate ∧ c.retire.cmapLo = (c.setEntry n 16).cmapLo
      ∧ c.retire.cmapHi = (c.setEntry n 16).cmapHi := by
  rw [retire_spare h h16]
  exact ⟨setEntry_pcstate _ n 16, setEntry_map_congr (by rw [setPc_cmapLo, setPc_cmapLo]) (by rw [setPc_cmapHi, setPc_cmapHi]) n 16⟩
theorem retire_empty_fields (h16 : (c.setPc c.tcore 2).pc 16 ≠ 1) :
    c.retire.pcstate = (c.setPc c.tcore 2).pcstate ∧ c.retire.cmapLo = (c.setEntry n 31).cmapLo
      ∧ c.retire.cmapHi = (c.setEntry n 31).cmapHi := by
  rw [retire_empty h h16]
  exact ⟨setEntry_pcstate _ n 31, setEntry_map_congr (setPc_cmapLo c c.tcore 2) (setPc_cmapHi c c.tcore 2) n 31⟩

end RetireNamed

theorem retire_runs : c.retire.runs = c.runs := by
  cases h : c.logicalOf c.tcore with
  | none => rw [retire_unnamed h, setPc_runs]
  | some n =>
    by_cases h16 : (c.setPc c.tcore 2).pc 16 = 1
    · rw [retire_spare h h16, setEntry_runs, setPc_runs, setPc_runs]
    · rw [retire_empty h h16, setEntry_runs, setPc_runs]

end Retire

/-- The cluster when its pattern has run: TESTSIG, one more run, the whole time. -/
def Cluster.patternRun (c : Cluster) (sig : Dw) : Cluster := { c with sig := sig, runs := c.runs + 1, elapsed := 200 }

theorem setPc_patternRun (c : Cluster) (sig : Dw) (p v : Nat) :
    (c.patternRun sig).setPc p v = (c.setPc p v).patternRun sig := rfl
theorem setEntry_patternRun (c : Cluster) (sig : Dw) (n v : Nat) :
    (c.patternRun sig).setEntry n v = (c.setEntry n v).patternRun sig := by
  unfold Cluster.setEntry; split <;> rfl

/-- What the pattern records does not touch what retirement changes. -/
theorem retire_patternRun (c : Cluster) (sig : Dw) : (c.patternRun sig).retire = c.retire.patternRun sig := by
  cases h : c.logicalOf c.tcore with
  | none => rw [retire_unnamed h, retire_unnamed (c := c.patternRun sig) h]; exact setPc_patternRun c sig c.tcore 2
  | some n =>
    by_cases h16 : (c.setPc c.tcore 2).pc 16 = 1
    · rw [retire_spare h h16, retire_spare (c := c.patternRun sig) h h16, ← setEntry_patternRun, ← setPc_patternRun,
        ← setPc_patternRun]; rfl
    · rw [retire_empty h h16, retire_empty (c := c.patternRun sig) h h16, ← setEntry_patternRun, ← setPc_patternRun]; rfl

theorem patternEnd_pass {c : Cluster} {sig : Dw} (h : sig = c.exp) :
    c.patternEnd sig = { c.patternRun sig with tstate := .pass } := if_pos h
theorem patternEnd_fail {c : Cluster} {sig : Dw} (h : sig ≠ c.exp) :
    c.patternEnd sig = { c.retire.patternRun sig with tstate := .fail, repair := true } := by
  rw [← retire_patternRun]; exact if_neg h

@[simp] theorem patternEnd_sig (c : Cluster) (sig : Dw) : (c.patternEnd sig).sig = sig := by
  by_cases h : sig = c.exp
  · rw [patternEnd_pass h]; rfl
  · rw [patternEnd_fail h]; rfl
@[simp] theorem patternEnd_runs (c : Cluster) (sig : Dw) : (c.patternEnd sig).runs = c.runs + 1 := by
  by_cases h : sig = c.exp
  · rw [patternEnd_pass h]; rfl
  · rw [patternEnd_fail h]; exact congrArg (· + 1) retire_runs

/-- A vector changes nothing but the vectors sent and pending. -/
theorem sendVec_frame (s : State) (v : Nat) :
    s.sendVec v = { s with msix := (s.sendVec v).msix, msixPend := (s.sendVec v).msixPend } := by
  unfold State.sendVec
  split
  · rfl
  · split <;> rfl
@[simp] theorem clu_sendVec (s : State) (v k : Nat) : (s.sendVec v).clu k = s.clu k := by rw [sendVec_frame]; rfl
@[simp] theorem core_sendVec (s : State) (v k : Nat) : (s.sendVec v).core k = s.core k := by rw [sendVec_frame]; rfl

/-- Whether a vector is sent depends on the MSI-X state alone. -/
theorem msix_sendVec_resetCore_setClu (s : State) (k clu v : Nat) (c : Cluster) :
    (((s.resetCore k).setClu clu c).sendVec v).msix = (s.sendVec v).msix := by
  have hmask : ((s.resetCore k).setClu clu c).msixMasked v = s.msixMasked v := rfl
  have hon : ((s.resetCore k).setClu clu c).msixOn = s.msixOn := rfl
  simp only [State.sendVec, hmask, hon]
  split
  · rfl
  · split <;> rfl

/-- The state when the pattern of a cluster has ended, before a repair record is posted. -/
def State.patternState (s : State) (clu : Nat) (sig : Dw) : State :=
  (s.resetCore (coreKey clu (s.clu clu).tcore)).setClu clu ((s.clu clu).patternEnd sig)

section PatternState
variable (s : State) (clu : Nat) (sig : Dw)

@[simp] theorem patternState_clu : (s.patternState clu sig).clu clu = (s.clu clu).patternEnd sig := State.clu_setClu _ _ _
@[simp] theorem patternState_core_tested : (s.patternState clu sig).core (coreKey clu (s.clu clu).tcore)
    = { preqs := (s.core (coreKey clu (s.clu clu).tcore)).preqs } := by
  simp [State.patternState]
theorem patternState_core_ne {k : Nat} (h : k ≠ coreKey clu (s.clu clu).tcore) : (s.patternState clu sig).core k = s.core k := by
  simp [State.patternState, core_resetCore_ne s h]
theorem patternState_msix : (s.patternState clu sig).msix = s.msix := rfl

end PatternState

section Pattern
variable {s : State} {clu : Nat} {sig : Dw} (hsig : sig = Config.scanSignature clu (s.clu clu).tcore (s.clu clu).runs)
  (hst : (s.clu clu).tstate = .running) (ht : (s.clu clu).tstart + 200 ≤ s.time)
include hsig hst ht

theorem patternDone_pass (h : sig = (s.clu clu).exp) : s.patternDone clu = s.patternState clu sig := by
  subst hsig
  simp [State.patternDone, State.patternState, Cluster.testCore, hst, ht, patternEnd_pass h]
/-- A fail posts a repair record. -/
theorem patternDone_fail (h : sig ≠ (s.clu clu).exp) : s.patternDone clu = (s.patternState clu sig).sendVec 2047 := by
  subst hsig
  simp [State.patternDone, State.patternState, State.eventVec, Cluster.testCore, hst, ht, patternEnd_fail h]

/-- In a pass and in a fail alike the clusters and cores are those of `patternState`. -/
theorem patternDone_clu : (s.patternDone clu).clu clu = (s.clu clu).patternEnd sig := by
  by_cases h : sig = (s.clu clu).exp
  · rw [patternDone_pass hsig hst ht h, patternState_clu]
  · rw [patternDone_fail hsig hst ht h, clu_sendVec, patternState_clu]
theorem patternDone_core (k : Nat) : (s.patternDone clu).core k = (s.patternState clu sig).core k := by
  by_cases h : sig = (s.clu clu).exp
  · rw [patternDone_pass hsig hst ht h]
  · rw [patternDone_fail hsig hst ht h, core_sendVec]

theorem patternDone_msix_pass (h : sig = (s.clu clu).exp) : (s.patternDone clu).msix = s.msix := by
  rw [patternDone_pass hsig hst ht h, patternState_msix]
theorem patternDone_msix_fail (h : sig ≠ (s.clu clu).exp) : (s.patternDone clu).msix = (s.sendVec 2047).msix := by
  rw [patternDone_fail hsig hst ht h]
  exact msix_sendVec_resetCore_setClu s _ clu 2047 _

end Pattern

/-! ### The configuration image (R436 to R438) -/

/-- The service die boots once, and again after the power of the compute dies was off. -/
theorem boot_of_needed {s : State} (h : s.booted = false ∨ (s.powerOff = true ∧ s.susp ≠ .suspended)) :
    s.boot = { s.lasting with booted := true, image := s.pickImage.map s.flashImage } := by
  refine if_neg ?_
  rcases h with hb | ⟨hp, hs⟩
  · simp [hb]
  · simp [hp, hs]

/-- The three ways in which the service die picks: no image is valid, the first is picked, or the second is. -/
theorem pickImage_cases (s : State) :
    ((s.flashImage 0).valid = false ∧ (s.flashImage 1).valid = false ∧ s.pickImage = none)
    ∨ ((s.flashImage 0).valid = true ∧ ((s.flashImage 1).valid = true → (s.flashImage 1).seqSum ≤ (s.flashImage 0).seqSum)
        ∧ s.pickImage = some 0)
    ∨ ((s.flashImage 1).valid = true ∧ ((s.flashImage 0).valid = true → (s.flashImage 0).seqSum < (s.flashImage 1).seqSum)
        ∧ s.pickImage = some 1) := by
  cases h0 : (s.flashImage 0).valid with
  | false =>
    cases h1 : (s.flashImage 1).valid with
    | false => simp [State.pickImage, h0, h1]
    | true => simp [State.pickImage, h0, h1]
  | true =>
    cases h1 : (s.flashImage 1).valid with
    | false => simp [State.pickImage, h0, h1]
    | true =>
      by_cases hlt : (s.flashImage 0).seqSum < (s.flashImage 1).seqSum
      · simp [State.pickImage, h0, h1, hlt]
      · simp [State.pickImage, h0, h1, hlt, Nat.not_lt.mp hlt]

theorem pickImage_eq_none_iff (s : State) :
    s.pickImage = none ↔ (s.flashImage 0).valid = false ∧ (s.flashImage 1).valid = false := by
  rcases pickImage_cases s with ⟨h0, h1, hp⟩ | ⟨h0, -, hp⟩ | ⟨h1, -, hp⟩
  · simp [h0, h1, hp]
  · simp [h0, hp]
  · simp [h1, hp]

/-- The image that is picked is valid, and no valid one has a higher SEQ sum. -/
theorem pickImage_best {s : State} {k : Nat} (h : s.pickImage = some k) :
    k < 2 ∧ (s.flashImage k).valid = true
      ∧ ∀ j, j < 2 → (s.flashImage j).valid = true → (s.flashImage j).seqSum ≤ (s.flashImage k).seqSum := by
  have two : ∀ j, j < 2 → j = 0 ∨ j = 1 := by omega
  rcases pickImage_cases s with ⟨-, -, hp⟩ | ⟨h0, hle, hp⟩ | ⟨h1, hlt, hp⟩
  · cases h.symm.trans hp
  · obtain rfl : k = 0 := Option.some.inj (h.symm.trans hp)
    refine ⟨by omega, h0, fun j hj hv => ?_⟩
    rcases two j hj with rfl | rfl
    · exact Nat.le_refl _
    · exact hle hv
  · obtain rfl : k = 1 := Option.some.inj (h.symm.trans hp)
    refine ⟨by omega, h1, fun j hj hv => ?_⟩
    rcases two j hj with rfl | rfl
    · exact Nat.le_of_lt (hlt hv)
    · exact Nat.le_refl _

/-! ### A function reports ready (R438, R439) -/

theorem retarget_frame (s : State) (p : Nat) : ∃ ps, s.retarget p = { s with pairs := ps } := by
  simp only [State.retarget]
  split
  · exact ⟨s.pairs, rfl⟩
  · exact ⟨_, rfl⟩

/-- A new CEIL changes nothing but the pairs. -/
theorem ceilSet_frame (s : State) (p v : Nat) : ∃ ps, s.ceilSet p v = { s with pairs := ps } :=
  retarget_frame _ p

/-- The spare rows and CEIL of a cluster's pairs. -/
theorem ceilSet_foldl_frame (f : Nat → Pair → Pair) (l : List Nat) (s : State) :
    ∃ ps, l.foldl (fun a p => (a.modPair p (f p)).ceilSet p 7) s = { s with pairs := ps } := by
  induction l generalizing s with
  | nil => exact ⟨s.pairs, rfl⟩
  | cons p l ih =>
    obtain ⟨ps, hp⟩ := ceilSet_frame (s.modPair p (f p)) p 7
    obtain ⟨qs, hq⟩ := ih ((s.modPair p (f p)).ceilSet p 7)
    exact ⟨qs, by rw [List.foldl_cons, hq, hp]; rfl⟩

/-- The part of a cluster's image record that its registers take: their reserved bits read 0 (R12). -/
def Cluster.applied (c : Cluster) (r : ImageRec) : Cluster :=
  { c with cmapLo := BitVec.ofNat 64 (r.lo.toNat % 2 ^ 60), cmapHi := BitVec.ofNat 64 (r.hi.toNat % 2 ^ 20)
           pcstate := BitVec.ofNat 64 (r.pcstate.toNat % 2 ^ 34) }

theorem applyImage_frame (s : State) (i : Image) (clu : Nat) :
    ∃ ps, s.applyImage i clu = { s.modClu clu (fun c => c.applied (i.record clu)) with pairs := ps } :=
  ceilSet_foldl_frame _ _ _

theorem toNat_ofNat_mod {n : Nat} (x : Nat) (h : n ≤ 64) : (BitVec.ofNat 64 (x % 2 ^ n)).toNat = x % 2 ^ n := by
  rw [BitVec.toNat_ofNat, Nat.mod_eq_of_lt]
  exact Nat.lt_of_lt_of_le (Nat.mod_lt _ (Nat.two_pow_pos n)) (Nat.pow_le_pow_right (by omega) h)

section ApplyPart
variable (s : State) (i : Image) (die : Nat) {k : Nat}

theorem applyPart_cluster (h : k < 16) : s.applyPart i die k = s.applyImage i (16 * die + k) := if_pos h
theorem applyPart_stack (h16 : 16 ≤ k) (h20 : k < 20) : s.applyPart i die k
    = s.modDie die (fun d => { d with repairs := Sp.put d.repairs (k - 16) (Sp.get 0 i.hbm (4 * die + (k - 16))) }) := by
  simp [State.applyPart, Nat.not_lt.mpr h16, h16, h20]
theorem applyPart_link (h : 33 ≤ k) : s.applyPart i die k
    = s.modDie die (fun d => { d with tuning := Sp.put d.tuning (k - 33) (Sp.get 0 i.links (6 * die + (k - 33))) }) := by
  simp [State.applyPart, show ¬k < 16 by omega, show ¬k < 20 by omega, h]
theorem applyPart_other (h20 : 20 ≤ k) (h33 : k < 33) : s.applyPart i die k = s := by
  simp [State.applyPart, show ¬k < 16 by omega, show ¬k < 20 by omega, show ¬33 ≤ k by omega]

/-- The part of a function leaves READY and memory as they are. -/
theorem applyPart_ready_mem (k : Nat) :
    ((s.applyPart i die k).die die).ready = (s.die die).ready ∧ (s.applyPart i die k).mem = s.mem := by
  by_cases h16 : k < 16
  · obtain ⟨ps, hps⟩ := applyImage_frame s i (16 * die + k)
    rw [applyPart_cluster s i die h16, hps]
    exact ⟨rfl, rfl⟩
  · by_cases h20 : k < 20
    · rw [applyPart_stack s i die (by omega) h20]
      simp [State.modDie]
    · by_cases h33 : k < 33
      · rw [applyPart_other s i die (by omega) h33]
        exact ⟨rfl, rfl⟩
      · rw [applyPart_link s i die (by omega)]
        simp [State.modDie]

end ApplyPart

theorem sendOrbit_frame (s : State) (m : OrbitMsg) :
    (s.sendOrbit m).mem = s.mem ∧ (s.sendOrbit m).dies = s.dies ∧ (s.sendOrbit m).clusters = s.clusters := by
  unfold State.sendOrbit; split <;> exact ⟨rfl, rfl, rfl⟩
theorem sendOrbit_foldl_frame (l : List OrbitMsg) (s : State) : (l.foldl State.sendOrbit s).mem = s.mem
    ∧ (l.foldl State.sendOrbit s).dies = s.dies ∧ (l.foldl State.sendOrbit s).clusters = s.clusters := by
  induction l generalizing s with
  | nil => exact ⟨rfl, rfl, rfl⟩
  | cons m l ih =>
    obtain ⟨hmem, hdies, hclusters⟩ := sendOrbit_frame s m
    obtain ⟨ihmem, ihdies, ihclusters⟩ := ih (s.sendOrbit m)
    exact ⟨ihmem.trans hmem, ihdies.trans hdies, ihclusters.trans hclusters⟩

/-- The state when a function has its part of the image and its bit of READY. -/
def State.madeReady (s : State) (i : Image) (die k : Nat) : State :=
  (s.applyPart i die k).modDie die (fun d => { d with ready := d.ready ||| BitVec.ofNat 39 (2 ^ k) })

/-- What waited for the function goes on: memory, dies and clusters stay. -/
theorem funcReady_frame {s : State} {i : Image} {die k : Nat} (hi : s.image = some i)
    (h : s.booted = true ∧ s.powerOff = false ∧ die < 4 ∧ k < 39 ∧ s.dieDown die = false
      ∧ (s.susp = .running ∨ s.susp = .resuming) ∧ bitOf (s.die die).ready.toNat k = false) :
    (s.funcReady die k).mem = (s.madeReady i die k).mem ∧ (s.funcReady die k).dies = (s.madeReady i die k).dies
      ∧ (s.funcReady die k).clusters = (s.madeReady i die k).clusters := by
  have hgo : s.funcReady die k = if 16 ≤ k ∧ k < 20 then (s.madeReady i die k).unfreeze .stackWait
      else if 33 ≤ k then (s.madeReady i die k).orbitGo else s.madeReady i die k := by
    obtain ⟨hb, hp, hd, hk, hdown, hs, hr⟩ := h
    simp [State.funcReady, hi, hb, hp, hd, hk, hdown, hs, hr, State.madeReady]
  rw [hgo]
  split
  · exact ⟨rfl, rfl, rfl⟩
  · split
    · exact sendOrbit_foldl_frame _ _
    · exact ⟨rfl, rfl, rfl⟩

/-- A cluster that has reported ready has the registers of its record, without their reserved bits. -/
theorem madeReady_cluster (s : State) (i : Image) (die : Nat) {k : Nat} (h : k < 16) :
    (s.madeReady i die k).clu (16 * die + k) = (s.clu (16 * die + k)).applied (i.record (16 * die + k)) := by
  obtain ⟨ps, hps⟩ := applyImage_frame s i (16 * die + k)
  rw [State.madeReady, applyPart_cluster s i die h, hps]
  exact State.clu_setClu _ _ _

theorem madeReady_repairs (s : State) (i : Image) (die : Nat) {k : Nat} (h16 : 16 ≤ k) (h20 : k < 20) :
    Sp.find? ((s.madeReady i die k).die die).repairs (k - 16) = some (Sp.get 0 i.hbm (4 * die + (k - 16))) := by
  simp [State.madeReady, applyPart_stack s i die h16 h20, State.modDie, Sp.find?_put_same]

theorem madeReady_tuning (s : State) (i : Image) (die : Nat) {k : Nat} (h : 33 ≤ k) :
    Sp.find? ((s.madeReady i die k).die die).tuning (k - 33) = some (Sp.get 0 i.links (6 * die + (k - 33))) := by
  simp [State.madeReady, applyPart_link s i die h, State.modDie, Sp.find?_put_same]

theorem madeReady_ready_mem (s : State) (i : Image) (die k : Nat) :
    ((s.madeReady i die k).die die).ready = (s.die die).ready ||| BitVec.ofNat 39 (2 ^ k) ∧ (s.madeReady i die k).mem = s.mem := by
  obtain ⟨hready, hmem⟩ := applyPart_ready_mem s i die k
  simp [State.madeReady, State.modDie, hready, hmem]

/-! ### The checkpoint streamer (R408, R417, R418) -/

/-- No STOP and no START waits: the passes go on. -/
theorem ckpAfter_goes_on {s : State} (hn : s.ckp.next = none) (hs : s.ckp.stop = false) : s.ckpAfter = s := by
  simp [State.ckpAfter, hn, hs]

/-- The streamer's position behind a leaf of `size` bytes at the position, and the part of the leaf that lies in the range. -/
def State.ckpPast (s : State) (size : Nat) : State := { s with ckp := { s.ckp with pos := s.ckp.pos / size * size + size } }
def Ckp.partLo (c : Ckp) (size : Nat) : Nat := max (c.pos / size * size) c.vbase
def Ckp.partHi (c : Ckp) (size : Nat) : Nat := min (c.pos / size * size + size) (c.vbase + c.vlen)

theorem ckpPage_awaited {s : State} (hact : s.ckp.active = true) (h : s.leafFrom s.ckp.pos 5 0 s.ckp.root = .awaited) :
    s.ckpPage = s := by
  simp [State.ckpPage, hact, h]

section Page
variable {s : State} (hact : s.ckp.active = true) (hstop : s.ckp.stop = false) (hnext : s.ckp.next = none)
  (hpos : s.ckp.pos < s.ckp.vbase + s.ckp.vlen)
include hact hpos

/-- The streamer has a page to visit. -/
theorem ckpPage_guard : (!s.ckp.active || decide (s.ckp.vbase + s.ckp.vlen ≤ s.ckp.pos)) = false := by
  rw [hact, decide_eq_false (Nat.not_le.mpr hpos)]; rfl

include hstop hnext in
theorem ckpPage_hole {size : Nat} (h : s.leafFrom s.ckp.pos 5 0 s.ckp.root = .hole size) : s.ckpPage = s.ckpPast size := by
  simp only [State.ckpPage, ckpPage_guard hact hpos, h, Bool.false_eq_true, ↓reduceIte]
  exact ckpAfter_goes_on hnext hstop

include hstop hnext in
/-- A clean page, where nothing is owed, is passed over. -/
theorem ckpPage_clean {lvl e ea : Nat} (h : s.leafFrom s.ckp.pos 5 0 s.ckp.root = .leaf lvl e ea) (howed : s.ckp.owed = [])
    (hd : pteD (s.homeDw (adAddr lvl e ea)) = false) : s.ckpPage = s.ckpPast (leafSize lvl e) := by
  have hd' : ∀ c, pteD (State.homeDw { s with ckp := c } (adAddr lvl e ea)) = false := fun _ => hd
  have hin : ∀ lo hi, owedIn s.ckp.root lo hi s.ckp.owed = false := fun _ _ => by rw [howed]; rfl
  simp only [State.ckpPage, ckpPage_guard hact hpos, h, hd', hin, Bool.or_self, Bool.not_false, Bool.or_true,
    Bool.false_eq_true, ↓reduceIte]
  exact ckpAfter_goes_on hnext hstop

/-- A dirty page that the streamer may read, and that nothing holds up, is cleared and sent. -/
theorem ckpPage_dirty {lvl e ea lo hi size : Nat} (h : s.leafFrom s.ckp.pos 5 0 s.ckp.root = .leaf lvl e ea)
    (hd : pteD (s.homeDw (adAddr lvl e ea)) = true) (hsize : size = leafSize lvl e) (hlo : lo = s.ckp.partLo size)
    (hhi : hi = s.ckp.partHi size) (hoff : paOff (leafPa lvl e lo) = false)
    (hcheck : leafCheck s.domain (supervisorAgent s.ckp.owner s.ckp.root) accRead lvl e ea = none)
    (hwait : (s.ckpPast size).sendWaits e lo hi (leafPa lvl e lo) = false) :
    s.ckpPage = ((((s.ckpPast size).adUpdate accRead lvl e ea).1.ckpClear lvl e ea (s.ckp.pos / size * size) size).ckpSend e lo hi
      (leafPa lvl e lo)).ckpAfter := by
  have hd' : ∀ c, pteD (State.homeDw { s with ckp := c } (adAddr lvl e ea)) = true := fun _ => hd
  subst hsize hlo hhi
  simp only [Ckp.partLo, Ckp.partHi, State.ckpPast] at hoff hwait ⊢
  simp only [State.ckpPage, ckpPage_guard hact hpos, h, hd', hoff, hcheck, hwait, Bool.true_or, Bool.not_true, Bool.or_self,
    Bool.false_eq_true, ↓reduceIte]

end Page

section PassEnd
variable {s : State} (hact : s.ckp.active = true) (hstop : s.ckp.stop = false) (hnext : s.ckp.next = none)
  (hpos : s.ckp.vbase + s.ckp.vlen ≤ s.ckp.pos)
include hact hstop hnext hpos

/-- Without a QUIESCE the next pass begins. -/
theorem ckpPassEnd_goes_on (hq : s.ckp.quies = []) :
    s.ckpPassEnd = { s.ckpRecord s.ckp.stsCore s.ckp.sts s.ckp.pass s.ckp.sent with
      ckp := { s.ckp with
        lastPass := s.ckp.pass, lastSent := s.ckp.sent, pos := s.ckp.vbase, sent := 0, pass := s.ckp.pass + 1, quies := [] } } := by
  simp [State.ckpPassEnd, hact, hstop, hnext, hq, Nat.not_lt.mpr hpos]

/-- The final pass of the one QUIESCE ends the range, with its record too. -/
theorem ckpPassEnd_quiesced {core sts : Nat} (hq : s.ckp.quies = [(core, sts, s.ckp.pass)]) :
    s.ckpPassEnd = { (s.ckpRecord s.ckp.stsCore s.ckp.sts s.ckp.pass s.ckp.sent).ckpRecord core sts s.ckp.pass s.ckp.sent with
      ckp := { s.ckp with
        lastPass := s.ckp.pass, lastSent := s.ckp.sent, pos := s.ckp.vbase, sent := 0, pass := s.ckp.pass + 1, quies := []
        active := false } } := by
  simp [State.ckpPassEnd, State.ckpEnd, hact, hstop, hnext, hq, Nat.not_lt.mpr hpos]

end PassEnd

/-! ### The statement -/

theorem exec_ckpPage_of_on {s t : State} (hon : s.streamerOn = true) (h : s.ckpPage = t) : exec .ckpPage s = .next t :=
  congrArg Host.Outcome.next ((if_pos hon).trans h)
theorem exec_ckpPassEnd_of_on {s t : State} (hon : s.streamerOn = true) (h : s.ckpPassEnd = t) : exec .ckpPassEnd s = .next t :=
  congrArg Host.Outcome.next ((if_pos hon).trans h)

/-- Settles O51, clause by clause, from what each step's operation leaves behind. -/
theorem maintenanceSteps : Obligations.MaintenanceSteps := by
  intro s clu v c p set
  refine ⟨?map, ?hold, ?start, ?abort, ?release, ?drain, ?pattern, ?rewrite, ?boot, ?noImage,
    ?bestImage, ?ready, ?noReady, ?page, ?passEnd⟩
  case map =>
    intro hi lo' hi'
    exact congrArg Host.Outcome.next (apply_ite (s.setClu clu) _ _ _).symm
  case hold =>
    intro hst back
    exact ⟨fun hp hpc => congrArg Host.Outcome.next ((testCommand_hold s clu v).trans (testHoldCmd_spare s clu hst hp hpc)),
      fun hp hpc => congrArg Host.Outcome.next ((testCommand_hold s clu v).trans (testHoldCmd_mapped s clu hst hp hpc)),
      fun h => congrArg Host.Outcome.next ((testCommand_hold s clu v).trans (testHoldCmd_refused s clu h))⟩
  case start =>
    intro hst
    exact congrArg Host.Outcome.next ((testCommand_start s clu v).trans (testStartCmd_held s clu hst))
  case abort =>
    intro hst
    obtain ⟨el, hclu⟩ := abortTest_clu s clu set
    refine ⟨_, congrArg Host.Outcome.next ((testCommand_abort s clu v).trans (testAbortCmd_active s clu hst)), ?_,
      abortTest_cores_of_draining s clu set, abortTest_core_tested s clu set, ?_, fun _ => abortTest_core_ne s clu set,
      abortTest_mem s clu set⟩
    · rw [hclu]
    · rw [hclu]; rfl
  case release =>
    intro hst
    exact congrArg Host.Outcome.next ((testCommand_release s clu v).trans (testReleaseCmd_tested s clu hst))
  case drain =>
    intro hst hl hp
    exact congrArg Host.Outcome.next (testDrained_of_ended hst (coreEnded_of_free hl hp))
  case pattern =>
    intro hst ht sig out
    have hclu : (s.patternDone clu).clu clu = c.patternEnd sig := patternDone_clu rfl hst ht
    have hcore : ∀ k, (s.patternDone clu).core k = (s.patternState clu sig).core k := patternDone_core rfl hst ht
    refine ⟨s.patternDone clu, rfl, ?_, ?_, ?_, fun k hk => ?_, fun h => ?_, fun h => ?_⟩
    · rw [hclu, patternEnd_sig]
    · rw [hclu, patternEnd_runs]
    · rw [hcore]; exact patternState_core_tested s clu sig
    · rw [hcore]; exact patternState_core_ne s clu sig hk
    · rw [hclu, patternEnd_pass h]
      exact ⟨rfl, rfl, rfl, rfl, patternDone_msix_pass rfl hst ht h⟩
    · rw [hclu, patternEnd_fail h]
      exact ⟨rfl, rfl, patternDone_msix_fail rfl hst ht h, retire_unnamed_fields, fun _ => retire_spare_fields,
        fun _ => retire_empty_fields⟩
  case rewrite =>
    intro hr i i'
    exact congrArg Host.Outcome.next (if_pos hr)
  case boot => exact fun h => congrArg Host.Outcome.next (boot_of_needed h)
  case noImage => exact pickImage_eq_none_iff s
  case bestImage => exact fun k h => pickImage_best h
  case ready =>
    intro die k i hi hb hp hd hk hdown hs hr
    obtain ⟨hmem, hdies, hclusters⟩ := funcReady_frame hi ⟨hb, hp, hd, hk, hdown, hs, hr⟩
    have hdie : (s.funcReady die k).die die = (s.madeReady i die k).die die := by rw [State.die, hdies]; rfl
    have hclu : ∀ n, (s.funcReady die k).clu n = (s.madeReady i die k).clu n := fun n => by rw [State.clu, hclusters]; rfl
    obtain ⟨hready, hmem'⟩ := madeReady_ready_mem s i die k
    refine ⟨s.funcReady die k, rfl, hdie ▸ hready, fun h => ?_, fun h16 h20 => ?_, fun h => ?_, hmem.trans hmem'⟩
    · rw [hclu, madeReady_cluster s i die h]
      exact ⟨toNat_ofNat_mod _ (by omega), toNat_ofNat_mod _ (by omega), toNat_ofNat_mod _ (by omega)⟩
    · exact hdie ▸ madeReady_repairs s i die h16 h20
    · exact hdie ▸ madeReady_tuning s i die h
  case noReady =>
    intro die k hi
    exact congrArg Host.Outcome.next (by simp [State.funcReady, hi])
  case page =>
    intro hon hact hstop hnext hpos
    refine ⟨fun size h => exec_ckpPage_of_on hon (ckpPage_hole hact hstop hnext hpos h),
      fun h => exec_ckpPage_of_on hon (ckpPage_awaited hact h), ?_⟩
    intro lvl e ea h size va lo hi past
    exact ⟨fun howed hd => exec_ckpPage_of_on hon (ckpPage_clean hact hstop hnext hpos h howed hd),
      fun hd hoff hcheck hwait => exec_ckpPage_of_on hon (ckpPage_dirty hact hpos h hd rfl rfl rfl hoff hcheck hwait)⟩
  case passEnd =>
    intro hon hact hpos hnext hstop r ended
    exact ⟨fun hq => exec_ckpPassEnd_of_on hon (ckpPassEnd_goes_on hact hstop hnext hpos hq),
      fun core sts hq => exec_ckpPassEnd_of_on hon (ckpPassEnd_quiesced hact hstop hnext hpos hq)⟩

end Sys2Proof.Machine
end

section
/-! SUPPORT. The beats of the array (R198 to R204, R207 to R211): what a window makes of the operation in the array, what each operation
does with its tiles, its marks, the scratchpad and the pair, and what it leaves alone; then the statement about them. -/

namespace Sys2Proof.Machine

/-! ### What a change leaves of a core's array and scratchpad -/

/-- A change of a core that leaves its tiles, its scratchpad's bytes and the marks that wait. -/
structure Core.SameArray (k l : Core) : Prop where
  tiles : l.tiles = k.tiles
  tileMarks : l.tileMarks = k.tileMarks
  scratch : l.scratch = k.scratch
  marks : l.marks = k.marks

/-- A change of the state that leaves them of one core, and leaves home memory and the pairs. -/
structure State.SameArray (core : Nat) (s t : State) : Prop where
  own : (s.core core).SameArray (t.core core)
  mem : t.mem = s.mem
  pairs : t.pairs = s.pairs

theorem State.SameArray.trans {core : Nat} {s t u : State} (h : s.SameArray core t) (g : t.SameArray core u) : s.SameArray core u :=
  ⟨⟨g.own.tiles.trans h.own.tiles, g.own.tileMarks.trans h.own.tileMarks, g.own.scratch.trans h.own.scratch,
    g.own.marks.trans h.own.marks⟩, g.mem.trans h.mem, g.pairs.trans h.pairs⟩

theorem State.SameArray.refl (core : Nat) (s : State) : s.SameArray core s := ⟨⟨rfl, rfl, rfl, rfl⟩, rfl, rfl⟩

theorem State.SameArray.pair {core : Nat} {s t : State} (h : s.SameArray core t) (p : Nat) : t.pair p = s.pair p := by
  rw [State.pair, State.pair, h.pairs]

section Frames
variable (s : State) (core : Nat)

theorem sameArray_modCore {f : Core → Core} (h : ∀ k : Core, k.SameArray (f k)) : s.SameArray core (s.modCore core f) :=
  ⟨(State.core_modCore s core f).symm ▸ h _, rfl, rfl⟩

theorem sameArray_modCtx (x : Nat) (f : Ctx → Ctx) : s.SameArray core (s.modCtx core x f) :=
  sameArray_modCore s core (f := fun k => k.setCtx x (f (k.ctx x))) fun _ => ⟨rfl, rfl, rfl, rfl⟩

theorem sameArray_yieldHeld (x space k : Nat) (cs : Cells) : s.SameArray core (s.yieldHeld core x space k cs) := by
  unfold State.yieldHeld
  split
  · exact sameArray_modCtx s core x _
  · exact .refl core s

/-- The upper twin's part of what both twins do leaves the lower twin's own stores. -/
theorem sameArray_bothTwins (f : State → State) : (f s).SameArray core (s.bothTwins core f) := by
  cases h : (s.core core).twin with
  | none => rw [State.bothTwins_alone s core f h]; exact .refl core _
  | some t =>
    simp only [State.bothTwins, h]
    exact sameArray_modCore (f s) core fun _ => ⟨rfl, rfl, rfl, rfl⟩

theorem sameArray_tileDiverge (r : MRun) : s.SameArray core (s.tileDiverge core r) := by
  unfold State.tileDiverge
  split
  · exact .refl core s
  · split
    · exact .refl core s
    · exact ⟨⟨rfl, rfl, rfl, rfl⟩, rfl, rfl⟩

theorem sameArray_pderrs (r : MRun) (evs : List (Nat × Nat)) : s.SameArray core (s.pderrs core r evs).1 :=
  List.foldlRecOn (motive := fun a : State × MRun => s.SameArray core a.1) evs _ (.refl core s)
    fun a h _ _ => by dsimp only; exact h.trans (sameArray_modCtx a.1 core r.ent.ctx _)

theorem beatNext_sameArray (k : Core) (r : MRun) : k.SameArray (k.beatNext r) := by
  unfold Core.beatNext
  dsimp only
  split
  · exact ⟨rfl, rfl, rfl, rfl⟩
  · split <;> exact ⟨rfl, rfl, rfl, rfl⟩

end Frames

/-! ### The window of a beat (R202, R211) -/

section ReadDesc
variable (s : State) (core : Nat) (r : MRun)

@[simp] theorem readDesc_ent : (s.readDesc core r).ent = r.ent := by unfold State.readDesc; split <;> rfl
@[simp] theorem readDesc_beat : (s.readDesc core r).beat = r.beat := by unfold State.readDesc; split <;> rfl
@[simp] theorem readDesc_rep : (s.readDesc core r).rep = r.rep := by unfold State.readDesc; split <;> rfl

theorem readDesc_of_ne_mmap (h : r.ent.op ≠ 5) : s.readDesc core r = r := if_neg fun h5 => h h5.1

/-- Poison that the operation has met stays with it. -/
theorem readDesc_poison (h : r.poison ≠ none) : (s.readDesc core r).poison.isSome = true := by
  have h' := Option.isSome_iff_ne_none.mpr h
  unfold State.readDesc
  split
  · simp [h']
  · exact h'

end ReadDesc

/-- The state in which the beat of a window is performed: the descriptor has been read, and its cycle has come. -/
def State.inWindow (s : State) (core : Nat) : State := (s.readDescs core).modCore core (fun k => k.reach k.mwin)

theorem sameArray_readDescs (s : State) (core : Nat) : s.SameArray core (s.readDescs core) := by
  refine State.SameArray.trans ?_ (sameArray_bothTwins s core _)
  exact sameArray_modCore s core fun _ => ⟨rfl, rfl, rfl, rfl⟩

theorem sameArray_inWindow (s : State) (core : Nat) : s.SameArray core (s.inWindow core) :=
  (sameArray_readDescs s core).trans (sameArray_modCore (s.readDescs core) core fun _ => ⟨rfl, rfl, rfl, rfl⟩)

theorem mrun_bothTwins (s : State) (core : Nat) (f : State → State) :
    ((s.bothTwins core f).core core).mrun = ((f s).core core).mrun := by
  cases h : (s.core core).twin with
  | none => rw [State.bothTwins_alone s core f h]
  | some t => simp [State.bothTwins, h]

theorem mrun_inWindow {s : State} {core : Nat} {r : MRun} (h : (s.core core).mrun = some r) :
    ((s.inWindow core).core core).mrun = some (s.readDesc core r) := by
  simp [State.inWindow, Core.reach, State.readDescs, mrun_bothTwins, h]

/-- A window that an operation uses leaves what the beat does, but for how far the operation has come and for the upper twin. -/
theorem sameArray_matBeat {s : State} {core : Nat} {r : MRun} (hr : (s.core core).mrun = some r)
    (hopen : (s.core core).windowOpen (s.core core).mwin = true) (hw : r.waits = false) :
    ((s.inWindow core).beatAct core (s.readDesc core r)).1.SameArray core (s.matBeat core) := by
  have hbeat : s.matBeat core = ((s.inWindow core).bothTwins core (State.beatOwn core)).tileDiverge core r := by
    simp [State.matBeat, hr, hopen, hw, State.inWindow]
  have hown : State.beatOwn core (s.inWindow core) = ((s.inWindow core).beatAct core (s.readDesc core r)).1.modCore core
      (fun k => k.beatNext ((s.inWindow core).beatAct core (s.readDesc core r)).2) := by
    simp [State.beatOwn, mrun_inWindow hr]
  rw [hbeat]
  have hnext := sameArray_modCore ((s.inWindow core).beatAct core (s.readDesc core r)).1 core
    fun k => beatNext_sameArray k ((s.inWindow core).beatAct core (s.readDesc core r)).2
  exact ((hown ▸ hnext).trans (sameArray_bothTwins _ core _)).trans (sameArray_tileDiverge _ core r)

/-! ### Which operation a beat performs -/

section Op
variable (s : State) (core : Nat) {r : MRun}

theorem beatAct_mul (h2 : 2 ≤ r.ent.op) (h5 : r.ent.op ≤ 5) : s.beatAct core r = s.beatMul core r := by
  have h : r.ent.op = 2 ∨ r.ent.op = 3 ∨ r.ent.op = 4 ∨ r.ent.op = 5 := by omega
  rcases h with h | h | h | h <;> simp [State.beatAct, mtMul, h]
theorem beatAct_accrd (h : r.ent.op = 6) : s.beatAct core r = (s.beatAccrd core r, r) := by simp [State.beatAct, h]
theorem beatAct_accwr (h : r.ent.op = 7) : s.beatAct core r = s.beatAccwr core r := by simp [State.beatAct, h]
theorem beatAct_acccl (h : r.ent.op = 8) : s.beatAct core r =
    (s.modCore core (fun k => (k.setTile r.ent.tile []).markTile r.ent.tile false), r) := by simp [State.beatAct, h]
theorem beatAct_pldef (h : r.ent.op = 9) : s.beatAct core r = s.beatPldef core r := by simp [State.beatAct, h]
theorem beatAct_mmrk (h : r.ent.op = 10) : s.beatAct core r =
    (if r.ent.mark = 0 then s else s.modCore core (fun k => { k with marks := k.marks ++ [(r.ent.ctx, r.ent.tag, r.ent.mark)] }), r) := by
  simp [State.beatAct, h]
/-- mcfg, which has acted at dispatch, and codes that no operation has (R195). -/
theorem beatAct_none (h : r.ent.op < 2 ∨ 10 < r.ent.op) : s.beatAct core r = (s, r) := by
  have hm : mtMul r.ent.op = false := by simp [mtMul]; omega
  unfold State.beatAct
  split
  · omega
  · omega
  · omega
  · omega
  · omega
  · rw [hm, if_neg Bool.false_ne_true]

end Op

/-! ### A beat of products (R198 to R203) -/

/-- The stores as a multiplication's beat reads them (R212, R225): what it has read of other cores before stands over them (log entry 126). -/
def State.beatView (s : State) (core : Nat) (r : MRun) : State :=
  ((s.beatOrder core r).viewOf core r.ent.ctx).underKept r.ent

/-- The columns of a beat, the operation after it has read them, and the events of an mmap's columns. -/
def State.beatColumns (v : State) (core : Nat) (r : MRun) : List (List Ex) × MRun × List (Nat × Nat) :=
  if r.ent.op = 5 then v.mmapCols core r
  else
    let b := v.beatCols core r
    (b.1, { r with poison := if r.poison.isSome then r.poison else b.2 }, [])

/-- The operation after it has read the rows too. -/
def State.beatRead (v : State) (core : Nat) (r : MRun) : MRun :=
  let q := (v.beatColumns core r).2.1
  { q with poison := if q.poison.isSome then q.poison else (v.beatRows core r).2 }

/-- Tile T after a beat. -/
def Core.beatSums (k : Core) (v : State) (core : Nat) (r : MRun) : List Nat :=
  beatTile (mxClass (mxA (v.beatRead core r).ent.cfg.toNat) == 3) (k.tileWords r.ent.tile) (v.beatRows core r).1 (v.beatColumns core r).1

/-- The core after a beat of products. -/
def Core.multiply (k : Core) (v : State) (core : Nat) (r : MRun) : Core :=
  ((k.setTile r.ent.tile (k.beatSums v core r)).poisonTiles (v.beatRead core r)).rankAct (v.beatRead core r)

theorem beatMul_eq (s : State) (core : Nat) (r : MRun) :
    let z := Claims.tileReady s core r
    s.beatMul core r = ((z.beatOrder core r).modCore core (fun k => k.multiply (z.beatView core r) core r)).pderrs core
      ((z.beatView core r).beatRead core r) ((z.beatView core r).beatColumns core r).2.2 := rfl

theorem beatColumns_values (v : State) (core : Nat) (r : MRun) :
    (v.beatColumns core r).1 = if r.ent.op = 5 then (v.mmapCols core r).1 else (v.beatCols core r).1 := by
  unfold State.beatColumns; split <;> rfl

/-- The operation r after it has read: it stands where it stood, and poison that it has met stays with it. -/
structure MRun.HasRead (r q : MRun) : Prop where
  ent : q.ent = r.ent
  beat : q.beat = r.beat
  poison : r.poison.isSome = true → q.poison.isSome = true

theorem MRun.HasRead.next {r q : MRun} (h : r.HasRead q) (cols : List ColState) (profs : List (Nat × Option (List Dw))) (words : Sp Nat)
    (p : Option Dw) : r.HasRead
      { q with cols := cols, profs := profs, words := words, poison := if q.poison.isSome then q.poison else p } :=
  ⟨h.ent, h.beat, fun hp => by simp [h.poison hp]⟩

theorem hasRead_mmapCols (v : State) (core : Nat) (r : MRun) : r.HasRead (v.mmapCols core r).2.1 := by
  unfold State.mmapCols
  dsimp only
  refine List.foldlRecOn (motive := fun a : List (List Ex) × MRun × List (Nat × Nat) => r.HasRead a.2.1) _ _ ⟨rfl, rfl, id⟩ ?_
  intro a h j _
  exact h.next _ _ _ _

theorem hasRead_beatColumns (v : State) (core : Nat) (r : MRun) : r.HasRead (v.beatColumns core r).2.1 := by
  unfold State.beatColumns
  split
  · exact hasRead_mmapCols v core r
  · exact ⟨rfl, rfl, fun h => by simp [h]⟩

section Multiply
variable (v : State) (core : Nat) (r : MRun)

theorem beatRead_ent : (v.beatRead core r).ent = r.ent := (hasRead_beatColumns v core r).ent
theorem beatRead_beat : (v.beatRead core r).beat = r.beat := (hasRead_beatColumns v core r).beat
theorem beatRead_poison (h : r.poison.isSome = true ∨ (v.beatRows core r).2 ≠ none) : (v.beatRead core r).poison.isSome = true := by
  simp only [State.beatRead]
  split
  · assumption
  · next hq => exact Option.isSome_iff_ne_none.mpr (h.resolve_left fun hr => hq ((hasRead_beatColumns v core r).poison hr))

end Multiply

/-- What a tile holds depends on the tiles alone. -/
theorem tileWords_congr {k l : Core} (h : l.tiles = k.tiles) (t : Nat) : l.tileWords t = k.tileWords t := by
  rw [Core.tileWords, Core.tileWords, h]
theorem setTile_congr {k l : Core} (h : l.tiles = k.tiles) (t : Nat) (ws : List Nat) : (l.setTile t ws).tiles = (k.setTile t ws).tiles := by
  simp only [Core.setTile, h]

@[simp] theorem setTile_tileMarks (k : Core) (t : Nat) (ws : List Nat) : (k.setTile t ws).tileMarks = k.tileMarks := rfl
@[simp] theorem setTile_scratch (k : Core) (t : Nat) (ws : List Nat) : (k.setTile t ws).scratch = k.scratch := rfl
theorem setTile_nil (k : Core) (t : Nat) : (k.setTile t []).tiles = Sp.set 0 k.tiles t 0 := by
  simp only [Core.setTile, packElems, BitVec.ofNat_eq_ofNat]
@[simp] theorem markTile_scratch (k : Core) (t : Nat) (on : Bool) : (k.markTile t on).scratch = k.scratch := rfl
@[simp] theorem markTile_tiles (k : Core) (t : Nat) (on : Bool) : (k.markTile t on).tiles = k.tiles := rfl
theorem markTile_clean (k : Core) (t : Nat) : (k.markTile t false).tileMarks = Sp.set 0 k.tileMarks t 0 := rfl
theorem markTile_marked (k : Core) (t : Nat) : Sp.get 0 (k.markTile t true).tileMarks t = 0xFFFF := by
  simp [Core.markTile, Sp.set]
theorem markTile_marks_ne (k : Core) {t u : Nat} (on : Bool) (h : u ≠ t) :
    Sp.get 0 (k.markTile t on).tileMarks u = Sp.get 0 k.tileMarks u := Sp.get_set_ne _ _ _ _ _ h

/-- The partner of a tile is another tile. -/
theorem ne_partner (t : Nat) : t ≠ t ^^^ 1 := fun h => by
  have h0 : t ^^^ (t ^^^ 1) = 0 := by rw [← h, Nat.xor_self]
  rw [← Nat.xor_assoc, Nat.xor_self, Nat.zero_xor] at h0
  exact Nat.one_ne_zero h0

section Core
variable (k : Core) (r : MRun)

@[simp] theorem poisonTiles_tiles : (k.poisonTiles r).tiles = k.tiles := by
  unfold Core.poisonTiles
  dsimp only
  split
  · split <;> rfl
  · rfl

theorem poisonTiles_marked (h : r.poison.isSome = true) : Sp.get 0 (k.poisonTiles r).tileMarks r.ent.tile = 0xFFFF := by
  simp only [Core.poisonTiles, h, if_true]
  split
  · rw [markTile_marks_ne _ _ (ne_partner _), markTile_marked]
  · exact markTile_marked k _

theorem rankAct_idle (h : ¬(r.ent.op = 4 ∧ r.beat + 1 = r.ent.beats)) : k.rankAct r = k := if_neg h

/-- Ranks go to the partner tile, and leave the marks of the tile of the scores. -/
theorem rankAct_marks : Sp.get 0 (k.rankAct r).tileMarks r.ent.tile = Sp.get 0 k.tileMarks r.ent.tile := by
  unfold Core.rankAct
  split
  · dsimp only
    split
    · rw [markTile_marks_ne _ true (ne_partner _), setTile_tileMarks]
    · rw [setTile_tileMarks]
  · rfl

theorem rankAct_tiles (h4 : r.ent.op = 4) (hlast : r.beat + 1 = r.ent.beats) : (k.rankAct r).tiles
    = (k.setTile (r.ent.tile ^^^ 1) (rankTile (mxClass (mxA r.ent.cfg.toNat) == 3) (mxRcol r.ent.cfg.toNat)
        (k.tileWords r.ent.tile))).tiles := by
  simp only [Core.rankAct, if_pos (And.intro h4 hlast)]
  split
  · rw [markTile_tiles]
  · rfl

variable (v : State) (core : Nat)

theorem multiply_tiles (h : ¬(r.ent.op = 4 ∧ r.beat + 1 = r.ent.beats)) :
    (k.multiply v core r).tiles = (k.setTile r.ent.tile (k.beatSums v core r)).tiles := by
  rw [Core.multiply, rankAct_idle _ _ (by rwa [beatRead_ent, beatRead_beat]), poisonTiles_tiles]

theorem multiply_tiles_ranked (h4 : r.ent.op = 4) (hlast : r.beat + 1 = r.ent.beats) :
    (k.multiply v core r).tiles = ((k.setTile r.ent.tile (k.beatSums v core r)).setTile (r.ent.tile ^^^ 1)
      (rankTile (mxClass (mxA r.ent.cfg.toNat) == 3) (mxRcol r.ent.cfg.toNat)
        ((k.setTile r.ent.tile (k.beatSums v core r)).tileWords r.ent.tile))).tiles := by
  rw [Core.multiply, rankAct_tiles _ _ (by rwa [beatRead_ent]) (by rwa [beatRead_ent, beatRead_beat]), beatRead_ent,
    tileWords_congr (poisonTiles_tiles _ _)]
  exact setTile_congr (poisonTiles_tiles _ _) _ _

theorem multiply_marked (h : r.poison.isSome = true ∨ (v.beatRows core r).2 ≠ none) :
    Sp.get 0 (k.multiply v core r).tileMarks r.ent.tile = 0xFFFF := by
  have hmark := poisonTiles_marked (k.setTile r.ent.tile (k.beatSums v core r)) _ (beatRead_poison v core r h)
  have hrank := rankAct_marks ((k.setTile r.ent.tile (k.beatSums v core r)).poisonTiles (v.beatRead core r)) (v.beatRead core r)
  rw [beatRead_ent] at hmark hrank
  exact hrank.trans hmark

theorem multiply_congr_tiles {l : Core} (h : l.tiles = k.tiles) : (l.multiply v core r).tiles = (k.multiply v core r).tiles := by
  have hsums : l.beatSums v core r = k.beatSums v core r := by rw [Core.beatSums, Core.beatSums, tileWords_congr h]
  have hset : (l.setTile r.ent.tile (l.beatSums v core r)).tiles = (k.setTile r.ent.tile (k.beatSums v core r)).tiles := by
    rw [hsums, setTile_congr h]
  by_cases hr : r.ent.op = 4 ∧ r.beat + 1 = r.ent.beats
  · rw [multiply_tiles_ranked l r v core hr.1 hr.2, multiply_tiles_ranked k r v core hr.1 hr.2, tileWords_congr hset]
    exact setTile_congr hset _ _
  · rw [multiply_tiles l r v core hr, multiply_tiles k r v core hr, hset]

end Core

/-! ### Stores that arrive (R212, R225) -/

theorem core_modCore_ne (s : State) {k j : Nat} (f : Core → Core) (h : j ≠ k) : (s.modCore k f).core j = s.core j :=
  State.core_setCore_ne s k j _ h

/-- Wake comparators count, and push tokens. -/
theorem feedComps_frame (k : Core) (cs : Cells) : ∃ comps ctxs, k.feedComps cs = { k with comps := comps, ctxs := ctxs } :=
  List.foldlRecOn (motive := fun l : Core => ∃ comps ctxs, l = { k with comps := comps, ctxs := ctxs }) k.comps _
    ⟨k.comps, k.ctxs, rfl⟩
    fun l ⟨comps, ctxs, hl⟩ e _ => by
      subst hl
      dsimp only
      split
      · exact ⟨_, _, rfl⟩
      · exact ⟨_, _, rfl⟩

/-- A scratchpad, of whichever core, is written: the tiles stay. -/
theorem scratchWrite_tiles (s : State) (c : Nat) (cs : Cells) (core : Nat) :
    ((s.scratchWrite c cs).core core).tiles = (s.core core).tiles := by
  unfold State.scratchWrite
  split
  · rfl
  · by_cases h : core = c
    · subst h
      rw [State.core_modCore]
      obtain ⟨comps, ctxs, hf⟩ := feedComps_frame ((s.core core).onTwin (fun k => { k with
        scratch := Memory.writes k.scratch cs, scratchPoison := clearMarks k.scratchPoison cs })) cs
      rw [hf]; rfl
    · rw [core_modCore_ne s _ h]

theorem arriveS2_tiles (s : State) (n core : Nat) : ((s.arriveS2 n).core core).tiles = (s.core core).tiles := by
  unfold State.arriveS2
  dsimp only
  split
  · rfl
  · exact scratchWrite_tiles _ _ _ core

theorem flushBytes_tiles (s : State) (c x target addr n core : Nat) :
    ((s.flushBytes c x target addr n).core core).tiles = (s.core core).tiles :=
  List.foldlRecOn (motive := fun a : State => (a.core core).tiles = (s.core core).tiles) s.s2 _ rfl fun a h _ _ => by
    split
    · exact (arriveS2_tiles a _ core).trans h
    · exact h

theorem beatOrder_tiles (s : State) (core : Nat) (r : MRun) : ((s.beatOrder core r).core core).tiles = (s.core core).tiles := by
  have hflush (a : State) (p : Prop) [Decidable p] (target addr n : Nat) :
      ((if p then a.flushBytes core r.ent.ctx target addr n else a).core core).tiles = (a.core core).tiles := by
    split
    · exact flushBytes_tiles a core r.ent.ctx target addr n core
    · rfl
  unfold State.beatOrder
  dsimp only
  split
  · exact hflush s _ _ _ _
  · exact (hflush _ _ _ _ _).trans (hflush s _ _ _ _)

section BeatMul
variable (s : State) (core : Nat) (r : MRun)

theorem beatMul_tiles : (((s.beatMul core r).1).core core).tiles
    = (((Claims.tileReady s core r).core core).multiply ((Claims.tileReady s core r).beatView core r) core r).tiles := by
  rw [beatMul_eq, (sameArray_pderrs _ core _ _).own.tiles, State.core_modCore]
  exact multiply_congr_tiles _ r _ core (beatOrder_tiles _ core r)

theorem beatMul_marked (h : r.poison.isSome = true ∨ (((Claims.tileReady s core r).beatView core r).beatRows core r).2 ≠ none) :
    Sp.get 0 (((s.beatMul core r).1).core core).tileMarks r.ent.tile = 0xFFFF := by
  rw [beatMul_eq, (sameArray_pderrs _ core _ _).own.tileMarks, State.core_modCore]
  exact multiply_marked _ r _ core h

end BeatMul

/-! ### Beats that move tiles (R207 to R209) -/

theorem maOff_eq (a : Nat) : maOff a = a % 2 ^ 20 := by simp [maOff, fld]

/-- A tile's marks after one of its rows has come in: what the tile holds and the scratchpad stay. -/
theorem markTile_ite_same (k : Core) (t : Nat) (p q : Prop) [Decidable p] [Decidable q] :
    (if p then k.markTile t true else if q then k.markTile t false else k).tiles = k.tiles
    ∧ (if p then k.markTile t true else if q then k.markTile t false else k).scratch = k.scratch := by
  split
  · exact ⟨rfl, rfl⟩
  · split <;> exact ⟨rfl, rfl⟩

/-- A write to a core's own scratchpad. -/
theorem scratchWrite_own (s : State) (core : Nat) {cs : Cells} (h : cs.isEmpty = false) :
    ((s.scratchWrite core cs).core core).scratch = Memory.writes (s.core core).scratch cs := by
  rw [State.scratchWrite, h, if_neg Bool.false_ne_true, State.core_modCore, (Core.feedComps_scratch _ _).1]
  rfl

theorem scratchWrite_mem (s : State) (c : Nat) (cs : Cells) : (s.scratchWrite c cs).mem = s.mem := by
  unfold State.scratchWrite
  split <;> rfl

/-- The cells that a beat of accrd writes. -/
def Core.rowCells (k : Core) (r : MRun) : Cells :=
  cellsAt (r.ent.ra.toNat % 2 ^ 20 + 64 * r.beat) (bytesOf 64 (k.tileRow r.ent.tile r.beat))

/-- The state when a beat of accrd has written its row: the marks, and what the context's operations have kept, come after it. -/
def State.rowWritten (s : State) (core : Nat) (r : MRun) : State :=
  (s.yieldHeld core r.ent.ctx 1 core ((s.core core).rowCells r)).scratchWrite core ((s.core core).rowCells r)

section Accrd
variable (s : State) (core : Nat) (r : MRun)

theorem sameArray_beatAccrd (h : r.beat < 16) : (s.rowWritten core r).SameArray core (s.beatAccrd core r) := by
  have hops (f : MEnt → MEnt) :
      (s.rowWritten core r).SameArray core ((s.rowWritten core r).modCore core (fun k => k.modOps r.ent.ctx f)) :=
    sameArray_modCore _ core fun _ => ⟨rfl, rfl, rfl, rfl⟩
  simp only [State.beatAccrd, if_neg (Nat.not_le.mpr h), maOff_eq]
  split
  · exact (hops _).trans (sameArray_modCore _ core fun _ => ⟨rfl, rfl, rfl, rfl⟩)
  · exact hops _

theorem rowWritten_tiles : ((s.rowWritten core r).core core).tiles = (s.core core).tiles :=
  (scratchWrite_tiles _ core _ core).trans (sameArray_yieldHeld s core r.ent.ctx 1 core _).own.tiles

theorem rowWritten_mem : (s.rowWritten core r).mem = s.mem :=
  (scratchWrite_mem _ core _).trans (sameArray_yieldHeld s core r.ent.ctx 1 core _).mem

theorem rowWritten_scratch : ((s.rowWritten core r).core core).scratch = Memory.writes (s.core core).scratch ((s.core core).rowCells r) :=
  (scratchWrite_own _ core rfl).trans (congrArg (Memory.writes · _) (sameArray_yieldHeld s core r.ent.ctx 1 core _).own.scratch)

theorem beatAccrd_mem : (s.beatAccrd core r).mem = s.mem := by
  by_cases h : r.beat < 16
  · exact (sameArray_beatAccrd s core r h).mem.trans (rowWritten_mem s core r)
  · rw [State.beatAccrd, if_pos (Nat.not_lt.mp h)]

theorem beatAccwr_tiles (h : r.beat < 16) : ((s.beatAccwr core r).1.core core).tiles
    = ((s.core core).setTile r.ent.tile (((s.core core).tileWords r.ent.tile).take (16 * r.beat)
        ++ unpackElems 32 ((s.viewOf core r.ent.ctx).scratchNat core (r.ent.ra.toNat % 2 ^ 20 + 64 * r.beat) 64) 16
        ++ ((s.core core).tileWords r.ent.tile).drop (16 * r.beat + 16))).tiles := by
  simp only [State.beatAccwr, if_neg (Nat.not_le.mpr h), State.core_modCore, maOff_eq]
  exact (markTile_ite_same _ _ _ _).1

theorem beatAccwr_scratch : ((s.beatAccwr core r).1.core core).scratch = (s.core core).scratch := by
  unfold State.beatAccwr
  split
  · rfl
  · rw [State.core_modCore]
    exact (markTile_ite_same _ _ _ _).2

theorem beatAccwr_mem : (s.beatAccwr core r).1.mem = s.mem := by
  unfold State.beatAccwr
  split <;> rfl

end Accrd

/-! ### pldef (R204) -/

theorem pair_modPair (s : State) (p : Nat) (f : Pair → Pair) : (s.modPair p f).pair p = f (s.pair p) := State.pair_setPair s p _

/-- The entry of a table is its 16 bits. -/
theorem ofNat_fld_tableEntry (d : List Dw) (i : Nat) :
    BitVec.ofNat 16 (fld (dwOf d (4 + i / 4)) (16 * (i % 4) + 15) (16 * (i % 4))) = Claims.tableEntry d i := by
  have hw : 16 * (i % 4) + 15 + 1 - 16 * (i % 4) = 16 := by omega
  apply BitVec.eq_of_toNat_eq
  simp [Claims.tableEntry, fld, hw]

section Pldef
variable (s : State) (core : Nat) (r : MRun)

/-- A pldef whose record is malformed, or longer than what it reads. -/
def MRun.badRecord (r : MRun) : Prop := prMalformed (r.desc.take 4) = true ∨ r.ent.beats * 48 < prBytes (r.desc.take 4)

theorem pldefDone_bad (h : r.badRecord) : s.pldefDone core r = s.modPair (s.pairOf core) (fun p => { p with
    slots := Sp.put p.slots r.ent.tile { record := r.desc.take 4, valid := false, writer := core, owner := s.ownerOf core } }) :=
  if_pos (by simpa [MRun.badRecord] using h)

theorem pldefDone_good (h : ¬r.badRecord) : s.pldefDone core r = s.modPair (s.pairOf core) (fun p => { p with
    slots := Sp.put p.slots r.ent.tile { record := r.desc.take 4, writer := core, owner := s.ownerOf core }
    dtab := (List.range (if prTable (r.desc.take 4) then 2 ^ prL (r.desc.take 4) else 0)).foldl
      (fun m i => Sp.set 0 m (prTbase (r.desc.take 4) + i) (Claims.tableEntry r.desc i)) p.dtab }) := by
  simp only [← ofNat_fld_tableEntry]
  exact if_neg (by simpa [MRun.badRecord] using h)

theorem pldefDone_pair :
    let p := s.pair (s.pairOf core)
    let p' := (s.pldefDone core r).pair (s.pairOf core)
    let rec_ := r.desc.take 4
    (r.badRecord → p'.slots = Sp.put p.slots r.ent.tile { record := rec_, valid := false, writer := core, owner := s.ownerOf core }
        ∧ p'.dtab = p.dtab)
    ∧ (¬r.badRecord → p'.slots = Sp.put p.slots r.ent.tile { record := rec_, writer := core, owner := s.ownerOf core }
        ∧ p'.dtab = (List.range (if prTable rec_ then 2 ^ prL rec_ else 0)).foldl
            (fun m i => Sp.set 0 m (prTbase rec_ + i) (Claims.tableEntry r.desc i)) p.dtab) := by
  refine ⟨fun h => ?_, fun h => ?_⟩
  · rw [pldefDone_bad s core r h, pair_modPair]; exact ⟨rfl, rfl⟩
  · rw [pldefDone_good s core r h, pair_modPair]; exact ⟨rfl, rfl⟩

/-- Profiles are the pair's: the cores and home memory stay. -/
theorem pldefDone_frame : (s.pldefDone core r).cores = s.cores ∧ (s.pldefDone core r).mem = s.mem := by
  by_cases h : r.badRecord
  · rw [pldefDone_bad s core r h]; exact ⟨rfl, rfl⟩
  · rw [pldefDone_good s core r h]; exact ⟨rfl, rfl⟩

/-- The operation when a beat of pldef has read its row. -/
def State.recordRead (s : State) (core : Nat) (r : MRun) : MRun :=
  { r with desc := r.desc ++ (s.viewOf core r.ent.ctx).scratchDws core (r.ent.ra.toNat % 2 ^ 20 + 48 * r.beat) 6 }

theorem beatPldef_last (h : r.beat + 1 = r.ent.beats) : (s.beatPldef core r).1 = s.pldefDone core (s.recordRead core r) := by
  simp only [State.beatPldef, State.recordRead, maOff_eq, if_pos h]

theorem beatPldef_frame : (s.beatPldef core r).1.cores = s.cores ∧ (s.beatPldef core r).1.mem = s.mem := by
  by_cases h : r.beat + 1 = r.ent.beats
  · rw [beatPldef_last s core r h]; exact pldefDone_frame s core _
  · simp only [State.beatPldef, if_neg h, and_self]

theorem beatPldef_core (k : Nat) : (s.beatPldef core r).1.core k = s.core k := by
  rw [State.core, State.core, (beatPldef_frame s core r).1]

end Pldef

/-! ### What a beat of no multiplication leaves alone -/

section Frame
variable (s : State) (core : Nat) (r : MRun)

theorem beatAct_mem (h : r.ent.op < 2 ∨ 5 < r.ent.op) : (s.beatAct core r).1.mem = s.mem := by
  have hop : r.ent.op = 6 ∨ r.ent.op = 7 ∨ r.ent.op = 8 ∨ r.ent.op = 9 ∨ r.ent.op = 10
      ∨ (r.ent.op < 2 ∨ 10 < r.ent.op) := by omega
  rcases hop with h | h | h | h | h | h
  · rw [beatAct_accrd s core h]; exact beatAccrd_mem s core r
  · rw [beatAct_accwr s core h]; exact beatAccwr_mem s core r
  · rw [beatAct_acccl s core h]; rfl
  · rw [beatAct_pldef s core h]; exact (beatPldef_frame s core r).2
  · rw [beatAct_mmrk s core h]; dsimp only; split <;> rfl
  · rw [beatAct_none s core h]

theorem beatAct_scratch (h6 : r.ent.op ≠ 6) (h : r.ent.op < 2 ∨ 5 < r.ent.op) :
    ((s.beatAct core r).1.core core).scratch = (s.core core).scratch := by
  have hop : r.ent.op = 7 ∨ r.ent.op = 8 ∨ r.ent.op = 9 ∨ r.ent.op = 10 ∨ (r.ent.op < 2 ∨ 10 < r.ent.op) := by omega
  rcases hop with h | h | h | h | h
  · rw [beatAct_accwr s core h]; exact beatAccwr_scratch s core r
  · rw [beatAct_acccl s core h, State.core_modCore, markTile_scratch, setTile_scratch]
  · rw [beatAct_pldef s core h, beatPldef_core]
  · rw [beatAct_mmrk s core h]
    dsimp only
    split
    · rfl
    · rw [State.core_modCore]
  · rw [beatAct_none s core h]

theorem beatAct_tiles_idle (h : r.ent.op = 1 ∨ r.ent.op = 9 ∨ r.ent.op = 10) :
    ((s.beatAct core r).1.core core).tiles = (s.core core).tiles := by
  rcases h with h | h | h
  · rw [beatAct_none s core (.inl (by omega))]
  · rw [beatAct_pldef s core h, beatPldef_core]
  · rw [beatAct_mmrk s core h]
    dsimp only
    split
    · rfl
    · rw [State.core_modCore]

theorem beatAct_marks (h : r.ent.op = 10) (hm : r.ent.mark ≠ 0) :
    ((s.beatAct core r).1.core core).marks = (s.core core).marks ++ [(r.ent.ctx, r.ent.tag, r.ent.mark)] := by
  rw [beatAct_mmrk s core h, if_neg hm, State.core_modCore]

theorem beatAct_cleared (h : r.ent.op = 8) :
    ((s.beatAct core r).1.core core).tiles = Sp.set 0 (s.core core).tiles r.ent.tile 0
    ∧ ((s.beatAct core r).1.core core).tileMarks = Sp.set 0 (s.core core).tileMarks r.ent.tile 0 := by
  rw [beatAct_acccl s core h, State.core_modCore, markTile_tiles, setTile_nil, markTile_clean, setTile_tileMarks]
  exact ⟨rfl, rfl⟩

end Frame

/-! ### Integer elements (R91) -/

theorem toInt_wrapInt (n : Nat) (i : Int) : (wrapInt n i : Int) = i % 2 ^ n := by
  have hpos : ((2 ^ n : Nat) : Int) ≠ 0 := Int.natCast_ne_zero.mpr (Nat.ne_of_gt (Nat.two_pow_pos n))
  rw [wrapInt, Int.toNat_of_nonneg (Int.emod_nonneg i hpos), Int.natCast_pow]
  rfl

/-- Element (i, j) of a tile after a beat is that of the element before, row i and column j. -/
theorem beatTile_getD (int : Bool) (acc : List Nat) (rows cols : List (List Ex)) {i j : Nat} (hacc : acc.length = 256) (hi : i < 16)
    (hj : j < 16) : (beatTile int acc rows cols).getD (16 * i + j) 0
      = (if int then beatInt else beatFloat) (acc.getD (16 * i + j) 0) (rows.getD i []) (cols.getD j []) := by
  have hlt : 16 * i + j < acc.length := by omega
  have hdiv : (16 * i + j) / 16 = i := by omega
  have hmod : (16 * i + j) % 16 = j := by omega
  have hzip : (acc.zip (List.range 256))[16 * i + j]? = some (acc.getD (16 * i + j) 0, 16 * i + j) :=
    List.getElem?_zip_eq_some.mpr ⟨by rw [List.getD_eq_getElem?_getD, List.getElem?_eq_getElem hlt, Option.getD_some],
      List.getElem?_range (by omega)⟩
  rw [beatTile, List.getD_eq_getElem?_getD, List.getElem?_map, hzip, Option.map_some, Option.getD_some, hdiv, hmod]

/-! ### The statement -/

/-- Settles O45: the beat acts on the state of its window, and what follows it leaves the array alone; then operation by operation. -/
theorem arrayBeats : Obligations.ArrayBeats := by
  refine ⟨?beat, ?integers⟩
  case integers =>
    intro acc rows cols i j hacc hi hj
    rw [beatTile_getD true acc rows cols hacc hi hj, if_pos rfl, beatInt, toInt_wrapInt]
  case beat =>
    intro s core r b hr hopen hw q w z v own tl k int cols sums last
    have ht : (w.beatAct core q).1.SameArray core (b.matBeat core) := sameArray_matBeat hr hopen hw
    have hwb : b.SameArray core w := sameArray_inWindow b core
    have hent : q.ent = r.ent := readDesc_ent b core r
    have hbeat : q.beat = r.beat := readDesc_beat b core r
    have htl : tl = q.ent.tile := by rw [hent]
    have hv : v = z.beatView core q := by simp only [v, State.beatView, hent]
    have hsums : k.beatSums (z.beatView core q) core q = sums := by
      simp only [sums, int, cols, tl, Core.beatSums, beatRead_ent, beatColumns_values, hent, hv]
    refine ⟨b.matBeat core, rfl, ?products, ?ranks, ?poison, ?accrd, ?accwr, ?acccl, ?pldef, ?mmrk, ?tiles, ?scratch, ?mem⟩
    case products =>
      intro h
      have hop : 2 ≤ q.ent.op ∧ q.ent.op ≤ 5 := by rw [hent]; omega
      have hnot : ¬(q.ent.op = 4 ∧ q.beat + 1 = q.ent.beats) := by rw [hent, hbeat]; simp only [last] at h; omega
      rw [ht.own.tiles, beatAct_mul w core hop.1 hop.2, beatMul_tiles, multiply_tiles k q _ core hnot, hsums, hent]
    case ranks =>
      intro h4 hlast
      have hop : 2 ≤ q.ent.op ∧ q.ent.op ≤ 5 := by rw [hent]; omega
      rw [ht.own.tiles, beatAct_mul w core hop.1 hop.2, beatMul_tiles,
        multiply_tiles_ranked k q _ core (hent ▸ h4) (by rw [hent, hbeat]; exact hlast), hsums, hent]
    case poison =>
      intro h2 h5 h
      rw [ht.own.tileMarks, beatAct_mul w core (hent ▸ h2) (hent ▸ h5), htl]
      exact beatMul_marked w core q (h.imp (readDesc_poison b core r) (hv ▸ id))
    case accrd =>
      intro h6 h16
      have hrow := sameArray_beatAccrd w core q (hbeat ▸ h16)
      have hact : w.beatAct core q = (w.beatAccrd core q, q) := beatAct_accrd w core (hent ▸ h6)
      have hcells : (w.core core).rowCells q
          = cellsAt (r.ent.ra.toNat % 2 ^ 20 + 64 * r.beat) (bytesOf 64 ((b.core core).tileRow tl r.beat)) := by
        rw [Core.rowCells, Core.tileRow, hwb.own.tiles, hent, hbeat, Core.tileRow]
      rw [ht.own.tiles, ht.own.scratch, hact, hrow.own.tiles, hrow.own.scratch, rowWritten_tiles, rowWritten_scratch, hcells,
        hwb.own.tiles, hwb.own.scratch]
      exact ⟨rfl, rfl⟩
    case accwr =>
      intro h7 h16
      rw [ht.own.tiles, beatAct_accwr w core (hent ▸ h7), beatAccwr_tiles w core q (hbeat ▸ h16), hent, hbeat,
        tileWords_congr hwb.own.tiles, setTile_congr hwb.own.tiles]
    case acccl =>
      intro h8
      rw [ht.own.tiles, ht.own.tileMarks, ← hwb.own.tiles, ← hwb.own.tileMarks, htl]
      exact beatAct_cleared w core q (hent ▸ h8)
    case pldef =>
      intro h9 hlast d rec_ bad p p'
      have hq : q = r := readDesc_of_ne_mmap b core r (by omega)
      have hp : p' = (w.beatPldef core r).1.pair (w.pairOf core) :=
        (ht.pair _).trans (by rw [hq, beatAct_pldef w core h9])
      rw [hp, beatPldef_last w core r hlast]
      exact pldefDone_pair w core (w.recordRead core r)
    case mmrk =>
      intro h10 hm
      rw [ht.own.marks, ← hwb.own.marks, ← hent]
      exact beatAct_marks w core q (hent ▸ h10) (hent ▸ hm)
    case tiles =>
      intro h
      rw [ht.own.tiles, beatAct_tiles_idle w core q (hent ▸ h), hwb.own.tiles]
    case scratch =>
      intro h6 h
      rw [ht.own.scratch, beatAct_scratch w core q (hent ▸ h6) (hent ▸ h), hwb.own.scratch]
    case mem =>
      intro h
      rw [ht.mem, beatAct_mem w core q (hent ▸ h), hwb.mem]

end Sys2Proof.Machine
end

section
/-! SUPPORT. The encoding from both sides (R96, R100 to R102, R108, R112, R114 to R116): the trigger ports and `trigOf` name the same
instruction, what a slot's decoder accepts encodes to the same word, and only the empty slots have the empty bundle; then the statements
about the decoder. -/

namespace Sys2Proof

/-! ### Trigger ports and instructions (R108) -/

/-- A port that names an instruction is a trigger port of its unit, and the instruction names the port: by unit, then by port. -/
theorem trigInstr_spec {u p : Nat} {m : MoveHead} {i : Instr} (h : trigInstr u p m = some i) :
    trigOf i = some (u, p, m) ∧ u < 12 ∧ 4 ≤ p ∧ p ≤ lastPort u := by
  unfold trigInstr at h
  split at h
  case h_13 => cases h
  all_goals
    simp only [sxInstr, smInstr, ctInstr, lsInstr, lvInstr, atInstr, vaInstr, vfInstr, vxInstr, saInstr] at h
    split at h <;> cases h
    all_goals exact ⟨rfl, by decide, by decide, by decide⟩

/-- The two scalar units, and the two vector units, share their ports. -/
theorem trigInstr_sx (v : BitVec 1) (p : Nat) (m : MoveHead) : trigInstr (0 + v.toNat) p m = sxInstr m v p := by
  rcases Laws.Encoding.bit1_cases v with rfl | rfl <;> rfl
theorem trigInstr_va (v : BitVec 1) (p : Nat) (m : MoveHead) : trigInstr (7 + v.toNat) p m = vaInstr m v p := by
  rcases Laws.Encoding.bit1_cases v with rfl | rfl <;> rfl

/-- A trigger instruction is that of the port it names, and is well-formed exactly when its head is: constructor by constructor. -/
theorem trigOf_spec {i : Instr} {u p : Nat} {m : MoveHead} (h : trigOf i = some (u, p, m)) : trigInstr u p m = some i ∧ i.wf = m.ok := by
  cases i <;> simp only [trigOf, reduceCtorEq, Option.some.injEq, Prod.mk.injEq] at h
  all_goals
    obtain ⟨rfl, rfl, rfl⟩ := h
    simp only [trigInstr_sx, trigInstr_va, Instr.wf, and_true]
    rfl

/-- The move word of a trigger is that of its unit and port. -/
theorem encodeMove_trig {i : Instr} {u p : Nat} {m : MoveHead} (h : trigOf i = some (u, p, m)) :
    encodeMove i = some (encodeTrig u p m) := by
  unfold encodeMove
  split
  case h_6 => rw [h]; rfl
  all_goals cases h

/-! ### What the decoder of a move slot accepts (R100 to R104) -/

theorem encodeTrig_headOf {w : Nat} (hw : w < 2 ^ 24) (hp : mvIsPort w = true) :
    encodeTrig (mvUnit w) (mvPort w) (headOf w) = w := by
  simp only [mvIsPort, bitOf, beq_iff_eq] at hp
  simp only [encodeTrig, headOf, mvUnit, mvPort, mvW, mvInv, mvGrd, mvSrc, fld, BitVec.toNat_ofNat]
  omega

theorem encodePlain_plainOf {w : Nat} (hw : w < 2 ^ 24) (h0 : mvW w = 0) : encodePlain (plainOf w) (mvDst w) = w := by
  simp only [mvW, fld] at h0
  simp only [encodePlain, plainOf, mvInv, mvGrd, mvSrc, mvDst, fld, BitVec.toNat_ofNat]
  omega

/-- The destination of a port word, cut into unit and port. -/
theorem mvDst_port {w : Nat} (hp : mvIsPort w = true) : mvDst w = 2 ^ 9 + mvUnit w * 2 ^ 5 + mvPort w := by
  simp only [mvIsPort, bitOf, beq_iff_eq] at hp
  simp only [mvDst, mvUnit, mvPort, fld]
  omega

/-- The destination of a legal word that is no port word is the register of its low byte. -/
theorem mvDst_register {w : Nat} (hp : mvIsPort w = false) (hd : dstIllegal (mvDst w) = false) : mvDst w = fld w 7 0 := by
  have h9 : bitOf (mvDst w) 9 = false := by
    simp only [mvIsPort, mvDst, bitOf, fld, beq_eq_false_iff_ne] at hp ⊢; omega
  have h8 : bitOf (mvDst w) 8 = false := by
    rw [dstIllegal, h9, if_neg Bool.false_ne_true, Bool.or_eq_false_iff] at hd; exact hd.1
  simp only [mvDst, bitOf, fld, beq_eq_false_iff_ne] at h8 h9 ⊢
  omega

/-- A legal word that is no trigger has W 0 (R104). -/
theorem mvW_of_plain {ipf w : Nat} (hb : badMove ipf w = false) (ht : mvIsTrig w = false) : mvW w = 0 := by
  have hlt : mvW w < 2 := Nat.mod_lt _ (by decide)
  simp only [badMove, ht, Bool.or_eq_false_iff, Bool.not_false, Bool.and_true, beq_eq_false_iff_ne] at hb
  omega

theorem dstIllegal_of_badMove {ipf w : Nat} (hb : badMove ipf w = false) : dstIllegal (mvDst w) = false := by
  simp only [badMove, Bool.or_eq_false_iff] at hb; exact hb.1.2

/-- A legal word to port 0 to 3 of a unit is that of the plain move it decodes to. -/
theorem encodePlain_port_eq {w k : Nat} (hw : w < 2 ^ 24) (hb : badMove 0 w = false) (hp : mvIsPort w = true) (hk : mvPort w = k)
    (h4 : k < 4) : encodePlain (plainOf w) (2 ^ 9 + (BitVec.ofNat 4 (mvUnit w)).toNat * 2 ^ 5 + k) = w := by
  have hu : (BitVec.ofNat 4 (mvUnit w)).toNat = mvUnit w := by
    simp only [mvUnit, fld, BitVec.toNat_ofNat]; omega
  have ht : mvIsTrig w = false := by
    rw [mvIsTrig, hp, hk, Bool.true_and, decide_eq_false_iff_not]; omega
  rw [hu, ← hk, ← mvDst_port hp]
  exact encodePlain_plainOf hw (mvW_of_plain hb ht)

/-- The word of a move slot is the encoding of the instruction it decodes to. -/
theorem encodeMove_of_decodeMove {w : Nat} {i : Instr} (hw : w < 2 ^ 24) (h : decodeMove 0 w = .ok i) : encodeMove i = some w := by
  unfold decodeMove at h
  split at h; · cases h
  split at h; · cases h
  rename_i hb
  rw [Bool.not_eq_true] at hb
  split at h
  · rename_i hp
    rw [Bool.not_eq_true'] at hp
    have ht : mvIsTrig w = false := by rw [mvIsTrig, hp, Bool.false_and]
    have hr : (BitVec.ofNat 8 (fld w 7 0)).toNat = mvDst w := by
      rw [mvDst_register hp (dstIllegal_of_badMove hb)]
      simp only [fld, BitVec.toNat_ofNat]; omega
    cases h
    rw [encodeMove, hr, encodePlain_plainOf hw (mvW_of_plain hb ht)]
  · rename_i hp
    rw [Bool.not_eq_true', Bool.not_eq_false] at hp
    dsimp only at h
    split at h
    case h_5 p _ _ _ _ =>
      split at h
      · rename_i hi
        cases h
        rw [encodeMove_trig (trigInstr_spec hi).1, encodeTrig_headOf hw hp]
      · cases h
    all_goals
      rename_i hk
      cases h
      exact congrArg some (encodePlain_port_eq hw hb hp hk (by decide))

/-! ### What the decoders of slots 6 and 7 accept (R112 to R116) -/

/-- The word of slot 6 is the encoding of the instruction it decodes to: operation by operation, the fields it lacks are 0. -/
theorem encodeMat_of_decodeMat {w : Nat} {i : Instr} (hw : w < 2 ^ 24) (h : decodeMat w = .ok i) : encodeMat i = some w := by
  unfold decodeMat at h
  split at h; · cases h
  rename_i hm
  rw [Bool.not_eq_true] at hm
  dsimp only at h
  split at h
  case h_12 => cases h
  all_goals
    rename_i hop
    cases h
    refine congrArg some ?_
    simp [matIllegal, hop] at hm
    simp only [matWord, fld, BitVec.toNat_ofNat] at *
    omega

/-- Without a pool every legal immediate is short (R115). -/
theorem engImm_of_legal {w : Nat} (h : immIllegal 0 w = false) : (engImm 0 0 w).toNat = fld w 9 0 := by
  have h3 : fld w 9 8 ≠ 3 := by
    intro h3
    simp [immIllegal, h3, poolEntries] at h
  rw [engImm, if_neg h3, BitVec.toNat_ofNat]
  simp only [fld]; omega

/-- The immediate of a legal word of slot 7 that is not empty, in a bundle without a pool. -/
theorem engImm_of_engIllegal {w op : Nat} (h : engIllegal 0 0 w = false) (hop : fld w 23 19 = op) (h0 : op ≠ 0) :
    (engImm 0 0 w).toNat = fld w 9 0 := by
  refine engImm_of_legal ?_
  cases hi : immIllegal 0 w
  · rfl
  · simp [engIllegal, hop, h0, hi] at h

/-- The word of slot 7 of a bundle without a pool is the encoding of the instruction it decodes to: operation by operation, the fields
that the operation lacks are 0. -/
theorem encodeEng_of_decodeEng {w : Nat} {i : Instr} (hw : w < 2 ^ 24) (h : decodeEng 0 0 w = .ok i) : encodeEng i = some w := by
  unfold decodeEng at h
  split at h; · cases h
  rename_i hm
  rw [Bool.not_eq_true] at hm
  dsimp only at h
  split at h
  case h_20 => cases h
  case h_1 =>
    rename_i hop
    cases h
    simp [engIllegal, hop] at hm
    rw [encodeEng, hm]
  case h_19 =>
    rename_i hop
    have himm := engImm_of_engIllegal hm hop (by decide)
    simp [engIllegal, hop, himm] at hm
    split at h
    all_goals
      rename_i hk
      cases h
      refine congrArg some ?_
      simp only [engWord, fld, BitVec.toNat_ofNat, imp_false] at *
      omega
  all_goals
    rename_i hop
    cases h
    refine congrArg some ?_
    have himm := engImm_of_engIllegal hm hop (by decide)
    simp [engIllegal, hop, himm] at hm
    simp only [engWord, fld, BitVec.toNat_ofNat] at *
    omega

/-! ### The bundle of an instruction -/

/-- A word of slot 6 or 7 stands for no move, and a word of slot 7 for none of slot 6. -/
theorem encodeMove_of_encodeMat {i : Instr} {w : Nat} (h : encodeMat i = some w) : encodeMove i = none := by
  unfold encodeMat at h; split at h <;> cases h <;> rfl
theorem encodeMove_of_encodeEng {i : Instr} {w : Nat} (h : encodeEng i = some w) : encodeMove i = none ∧ encodeMat i = none := by
  unfold encodeEng at h; split at h <;> cases h <;> exact ⟨rfl, rfl⟩

theorem bundleOf_of_encodeMove {i : Instr} {w : Nat} (h : encodeMove i = some w) : bundleOf i = some (oneMove w) := by
  unfold bundleOf
  split
  · cases h
  · rw [h]
theorem bundleOf_of_encodeMat {i : Instr} {w : Nat} (h : encodeMat i = some w) : bundleOf i = some (oneMat w) := by
  unfold bundleOf
  split
  · cases h
  · rw [encodeMove_of_encodeMat h, h]
theorem bundleOf_of_encodeEng {i : Instr} {w : Nat} (h : encodeEng i = some w) : bundleOf i = some (oneEng w) := by
  unfold bundleOf
  split
  · cases h
  · rw [(encodeMove_of_encodeEng h).1, (encodeMove_of_encodeEng h).2, h]; rfl

/-- An instruction with an encoding is a whole bundle, or one word of a slot. -/
theorem bundleOf_cases {i : Instr} {b : Bundle} (h : bundleOf i = some b) :
    i = .bundleIssue b ∨ (∃ w, encodeMove i = some w ∧ b = oneMove w) ∨ (∃ w, encodeMat i = some w ∧ b = oneMat w)
      ∨ ∃ w, encodeEng i = some w ∧ b = oneEng w := by
  unfold bundleOf at h
  split at h
  · exact .inl (congrArg _ (Option.some.inj h))
  · split at h
    · exact .inr (.inl ⟨_, ‹_›, (Option.some.inj h).symm⟩)
    · split at h
      · exact .inr (.inr (.inl ⟨_, ‹_›, (Option.some.inj h).symm⟩))
      · obtain ⟨w, hw, rfl⟩ := Option.map_eq_some_iff.mp h
        exact .inr (.inr (.inr ⟨w, hw, rfl⟩))

/-- Every bundle is that of the instruction it stands for: of its one slot when that is legal, else its own. -/
theorem bundleOf_instrOfBundle (b : Bundle) : bundleOf (instrOfBundle b) = some b := by
  unfold instrOfBundle
  split
  · rename_i hb
    split
    · rename_i hi; rw [bundleOf_of_encodeMove (encodeMove_of_decodeMove b.m0.isLt hi), ← hb.1]
    · rfl
  split
  · rename_i hb
    split
    · rename_i hi; rw [bundleOf_of_encodeMat (encodeMat_of_decodeMat b.mat.isLt hi), ← hb.1]
    · rfl
  split
  · rename_i hb
    split
    · rename_i hi; rw [bundleOf_of_encodeEng (encodeEng_of_decodeEng b.eng.isLt hi), ← hb.1]
    · rfl
  · rfl

/-! ### Well-formed instructions are read back -/

namespace Laws.Encoding

/-- The family Encoding of an instruction of a move slot: a move to a register or a port, or a trigger. -/
theorem move {i : Instr} {w : Nat} (h : encodeMove i = some w) : Statement i := by
  unfold encodeMove at h
  split at h
  · exact registerMove _ _
  · exact portAWrite _ _
  · exact portBWrite _ _
  · exact portDOverride _ _
  · exact portCfgWrite _ _
  · obtain ⟨⟨u, p, m⟩, ht, -⟩ := Option.map_eq_some_iff.mp h
    obtain ⟨hi, hw⟩ := trigOf_spec ht
    obtain ⟨-, hu, h4, hp⟩ := trigInstr_spec hi
    exact trigger u p m i hu h4 hp hw (bundleOf_of_encodeMove (encodeMove_trig ht)) hi

/-- The same of an operation of slot 6. -/
theorem matSlot {i : Instr} {w : Nat} (h : encodeMat i = some w) : Statement i := by
  unfold encodeMat at h
  split at h
  · exact matrixNop
  · exact mcfg _
  · exact mma _ _ _ _
  · exact mmaz _ _ _ _
  · exact mmar _ _ _ _
  · exact mmap _ _ _ _
  · exact accrd _ _ _
  · exact accwr _ _ _
  · exact acccl _
  · exact pldef _ _ _
  · exact mmrk _
  · cases h

/-- The same of an operation of slot 7. -/
theorem engSlot {i : Instr} {w : Nat} (h : encodeEng i = some w) : Statement i := by
  unfold encodeEng at h
  split at h
  · exact engineNop
  · exact cpy _ _ _
  · exact cpn _ _ _
  · exact cpz _ _ _
  · exact cpc _ _ _
  · exact cpk _ _ _
  · exact cpe _ _ _
  · exact send _ _ _
  · exact recv _ _ _
  · exact chw _ _ _
  · exact chi _ _ _
  · exact phr _ _ _ _
  · exact phd _ _ _
  · exact phs _ _ _
  · exact phb _ _ _
  · exact phw _ _ _
  · exact ple _ _
  · exact plu _ _
  · exact ckpStart _
  · exact ckpStop _
  · exact ckpQuiesce _
  · exact ckpStatus _
  · cases h

/-- The family Encoding: the bundle of a well-formed instruction, when it holds anything, stands for the instruction. -/
theorem statement (i : Instr) : Statement i := by
  cases hb : bundleOf i with
  | none => exact no_bundle i hb
  | some b =>
    obtain rfl | ⟨w, h, -⟩ | ⟨w, h, -⟩ | ⟨w, h, -⟩ := bundleOf_cases hb
    · exact bundleIssue b
    · exact move h
    · exact matSlot h
    · exact engSlot h

end Laws.Encoding

/-! ### Only the empty slots have the empty bundle -/

/-- The word of a well-formed move is not that of an empty slot. -/
theorem encodeMove_bounds {i : Instr} {w : Nat} (hwf : i.wf = true) (h : encodeMove i = some w) : 0 < w ∧ w < 2 ^ 24 := by
  unfold encodeMove at h
  split at h
  case h_1 m d =>
    cases h
    simp only [Instr.wf, regMoveOk, Bool.and_eq_true, decide_eq_true_eq] at hwf
    obtain ⟨-, hne⟩ := hwf
    have hlt := encodePlain_lt m d.toNat (by omega)
    exact ⟨Nat.pos_of_ne_zero hne, by omega⟩
  case h_6 =>
    obtain ⟨⟨u, p, m⟩, ht, rfl⟩ := Option.map_eq_some_iff.mp h
    obtain ⟨-, hu, -, hp⟩ := trigInstr_spec (trigOf_spec ht).1
    have hl := lastPort_lt u
    exact ⟨by simp only [encodeTrig]; omega, encodeTrig_lt u p m (by omega) (by omega)⟩
  all_goals
    rename_i m u
    cases h
    simp only [encodePlain]
    omega

theorem encodeMat_bounds {i : Instr} {w : Nat} (hi : i ≠ .matrixNop) (h : encodeMat i = some w) : 0 < w ∧ w < 2 ^ 24 := by
  unfold encodeMat at h
  split at h
  case h_1 => exact absurd rfl hi
  case h_11 => cases h; omega
  case h_12 => cases h
  all_goals
    cases h
    simp only [matWord]
    omega

theorem encodeEng_bounds {i : Instr} {w : Nat} (hi : i ≠ .engineNop) (h : encodeEng i = some w) : 0 < w ∧ w < 2 ^ 24 := by
  unfold encodeEng at h
  split at h
  case h_1 => exact absurd rfl hi
  case h_23 => cases h
  all_goals
    cases h
    simp only [engWord]
    omega

/-- A well-formed instruction with the empty bundle is that bundle, or an empty slot 6 or 7. -/
theorem eq_of_bundleOf_empty {i : Instr} (hwf : i.wf = true) (h : bundleOf i = some {}) :
    i = .bundleIssue {} ∨ i = .matrixNop ∨ i = .engineNop := by
  obtain rfl | ⟨w, hw, he⟩ | ⟨w, hw, he⟩ | ⟨w, hw, he⟩ := bundleOf_cases h
  · exact .inl rfl
  · obtain ⟨h0, hlt⟩ := encodeMove_bounds hwf hw
    have := (oneMove_m0 w hlt).symm.trans (congrArg (fun b : Bundle => b.m0.toNat) he.symm)
    exact absurd this (Nat.ne_of_gt h0)
  · by_cases hm : i = .matrixNop
    · exact .inr (.inl hm)
    obtain ⟨h0, hlt⟩ := encodeMat_bounds hm hw
    have := (oneMat_mat w hlt).symm.trans (congrArg (fun b : Bundle => b.mat.toNat) he.symm)
    exact absurd this (Nat.ne_of_gt h0)
  · by_cases hn : i = .engineNop
    · exact .inr (.inr hn)
    obtain ⟨h0, hlt⟩ := encodeEng_bounds hn hw
    have := (oneEng_eng w hlt).symm.trans (congrArg (fun b : Bundle => b.eng.toNat) he.symm)
    exact absurd this (Nat.ne_of_gt h0)

/-- A well-formed instruction that is no empty slot is the one its bundle stands for. -/
theorem instrOfBundle_bundleOf {i : Instr} {b : Bundle} (hwf : i.wf = true) (hb : bundleOf i = some b) (hm : i ≠ .matrixNop)
    (he : i ≠ .engineNop) : instrOfBundle b = i := by
  by_cases h : b = {}
  · subst h
    obtain rfl | rfl | rfl := eq_of_bundleOf_empty hwf hb
    · rfl
    · exact absurd rfl hm
    · exact absurd rfl he
  · exact Laws.Encoding.statement i hwf b hb h

/-! ### The statements -/

/-- Settles O58: the bytes of a bundle are read back as the bundle (`decode_bytes`); an instruction's bundle stands for it, and every bundle
is that of the instruction it stands for. -/
theorem decodeEncode : Obligations.DecodeEncode := by
  refine ⟨?readBack, ?encodes⟩
  case readBack =>
    intro i bs rest hwf henc hm he
    obtain ⟨b, hb, rfl⟩ := Option.map_eq_some_iff.mp henc
    rw [decode_bytes, instrOfBundle_bundleOf hwf hb hm he]
  case encodes =>
    intro b rest
    exact ⟨instrOfBundle b, decode_bytes b rest, by rw [encode, bundleOf_instrOfBundle]; rfl⟩

/-- Settles O60: each word is decoded as it stands. -/
theorem wordsDecode : Obligations.WordsDecode := ⟨rfl, rfl, rfl, rfl, rfl, rfl, rfl, rfl, rfl, rfl, rfl⟩

end Sys2Proof
end

section
/-! SUPPORT. The issue of a word that is no trigger, or that fails: the words of plain moves pass the static checks, and a bundle that fails
takes its trap and nothing else (R31, R103, R109 to R111, R119, R122); then the statements about moves, static faults and configurations. -/

namespace Sys2Proof.Machine

/-! ### The instruction of a trigger -/

/-- A trigger instruction means the issue of the bundle of its word: constructor by constructor. -/
theorem exec_trig {i : Instr} {u p : Nat} {m : MoveHead} (h : trigOf i = some (u, p, m)) (s : State) :
    exec i s = .next (issueBundle (oneMove (encodeTrig u p m)) s) := by
  cases i <;> simp only [trigOf, reduceCtorEq, Option.some.injEq, Prod.mk.injEq, Nat.zero_add] at h
  all_goals
    obtain ⟨rfl, rfl, rfl⟩ := h
    rfl

/-! ### Bundles that fail -/

/-- A free context's bundle with a fault of R119 steps 1 to 5 takes its trap. -/
theorem issue_earlyFault (s : State) (core x : Nat) (b : Bundle) (t : Trap) (hf : s.free core x = true)
    (he : (s.atIssue core x).earlyFault core x b = some t) : issueBundle b s = (s.settleLoops core x).takeTrap core x t := by
  obtain ⟨f1, f2, f3, f4, -, -, fs, f7, f8, -, f10, -, -, -, -⟩ := free_facts s core x hf
  have hlate : ((s.settleLoops core x).ctx core x).lateData = false := by rw [settleLoops_ctx]; exact f8
  have hpart : ((s.settleLoops core x).ctx core x).part2 = false := by rw [settleLoops_ctx]; exact f10
  have harr : s.arriveAt core x b = (s.settleLoops core x, .fail (.trap t)) := by
    simp only [State.atIssue] at he
    simp [State.arriveAt, f3, f4, hlate, hpart, he]
  simp only [issueBundle, f1, f2, issueOn_running s core x b fs, State.issueNow, f7, harr, Bool.false_and, Bool.false_eq_true, if_false,
    State.failAt]

/-- A free context's bundle of one word that fails its later checks takes its trap. -/
theorem issue_verdictFault (s : State) (core x w : Nat) (t : Trap) (hf : s.free core x = true) (hs : staticFault (oneMove w) = none)
    (hv : (s.settleLoops core x).verdict core x (oneMove w) = .fail (.trap t)) :
    issueBundle (oneMove w) s = (s.settleLoops core x).takeTrap core x t := by
  obtain ⟨f1, f2, -, -, -, -, fs, f7, -, -, -, -, -, -, -⟩ := free_facts s core x hf
  simp only [issueBundle, f1, f2, issueOn_running s core x _ fs, State.issueNow, f7, arriveAt_oneMove s core x w hf hs, hv,
    Bool.false_and, Bool.false_eq_true, if_false, State.failAt]

/-- A fault of R119 step 6 comes before every later check, when no trigger waits for a token. -/
theorem verdict_slotFault (s : State) (core x : Nat) (b : Bundle) (t : Trap)
    (hw : ((s.readyFor core x b).ts.any (fun g => g.unit == 3 && g.port == 16) && ((s.readyFor core x b).s.ctx core x).tokens == 0) = false)
    (hf : (s.readyFor core x b).s.slotFaults core x (s.readyFor core x b).ms 0 = some t) : s.verdict core x b = .fail (.trap t) := by
  simp only [State.verdict, hw, hf, Bool.false_eq_true, if_false]

/-- A trigger whose own check raises ILLEGAL_MOVE fails at its slot. -/
theorem slotFaults_trig (s : State) (core x : Nat) (m : Move) (l : List Move) (n : Nat) (ht : m.isTrig = true)
    (hf : s.trigFault core x n (trigOfMove (s.ctx core x) m) = some cILLEGAL_MOVE) :
    s.slotFaults core x (m :: l) n = some { cause := cILLEGAL_MOVE, pos := m.slot } := by
  simp only [State.slotFaults, ht, hf, if_true, ite_self]

/-- A move to port d of a value that names no register fails at its slot. -/
theorem slotFaults_override (s : State) (core x : Nat) (m : Move) (l : List Move) (n : Nat) (hb : badOverride m = true) :
    s.slotFaults core x (m :: l) n = some { cause := cILLEGAL_MOVE, pos := m.slot } := by
  simp only [State.slotFaults, hb, if_true]

/-- Settles O13: the first static fault is the first check of a bundle that reaches issue. -/
theorem staticFaultTraps : Obligations.StaticFaultTraps := by
  intro b s core x f p hf hs
  refine congrArg Host.Outcome.next (issue_earlyFault s core x b _ hf ?_)
  rw [State.earlyFault, hs]
  cases f <;> rfl

/-- Units SX, SM and CT have no configuration but 0 (R111, R122). -/
theorem cfgIllegal_scalar {u : Nat} (hu : u < 4) (p : Nat) {cfg : Nat} (h : cfg ≠ 0) : cfgIllegal u p cfg = true := by
  unfold cfgIllegal
  split
  case h_9 => exact decide_eq_true h
  all_goals omega

/-- Settles O14: the trigger's own slot fails at its configuration, before anything else can stand in its way. -/
theorem illegalCfgTraps : Obligations.IllegalCfgTraps := by
  intro i u p m s core x ht hu hm hcfg hwait
  obtain ⟨-, hu12, h4, hp⟩ := trigInstr_spec (trigOf_spec ht).1
  have hp32 : p < 32 := by have := lastPort_lt u; omega
  simp only [State.mayTrigger, Bool.and_eq_true] at hm
  obtain ⟨⟨hok, hfree⟩, htk⟩ := hm
  simp only [State.takes, Bool.and_eq_true, decide_eq_true_eq] at htk
  obtain ⟨⟨⟨hguard, -⟩, -⟩, -⟩ := htk
  have hlt := encodeTrig_lt u p m (by omega) hp32
  have htrig := mvIsTrig_encodeTrig u p m hu12 h4 hp32
  have htakes : moveTakes ((s.atIssue core x).ctx core x) (encodeTrig u p m) = true := by
    rw [moveTakes, encodeTrig_grd u p m (by omega) hp32, encodeTrig_inv u p m (by omega) hp32, hguard]; rfl
  have hready := readyFor_trig s core x _ hlt htrig (by rw [encodeTrig_unit u p m (by omega) hp32]; exact hu12) htakes
  rw [encodeTrig_src u p m (by omega) hp32, trigger_eq s core x u p m hu12 hp32] at hready
  have hbad : cfgIllegal u p (s.trigger core x u p m).cfg.toNat = true := by
    refine cfgIllegal_scalar hu p ?_
    intro h; exact hcfg (BitVec.eq_of_toNat_eq h)
  rw [exec_trig ht]
  refine congrArg Host.Outcome.next (issue_verdictFault s core x _ _ hfree
    (staticFault_oneMove _ hlt (badUnit_encodeTrig u p m hu12 hp32) (badMove_encodeTrig u p m hu12 h4 hp hok))
    (verdict_slotFault _ core x _ _ ?_ ?_))
  · obtain ⟨-, -, -, -, -, -, -, -, -, -, -, -, -, htok⟩ := atIssue_ctx_fields s core x
    rw [hready]
    show ([s.trigger core x u p m].any _ && ((s.atIssue core x).ctx core x).tokens == 0) = false
    rw [htok]
    simpa [State.trigger] using hwait
  · rw [hready]
    have hfault : (s.atIssue core x).trigFault core x 0 (s.trigger core x u p m) = some cILLEGAL_MOVE := by
      rw [State.trigFault]; exact if_pos hbad
    exact slotFaults_trig _ core x _ _ 0 htrig ((trigger_eq s core x u p m hu12 hp32).symm ▸ hfault)

/-! ### Plain moves (R103, R109 to R111) -/

theorem dstIllegal_register {d : Nat} (hd : d < 2 ^ 8) (hr : isReg d = true) : dstIllegal d = false := by
  have h9 : bitOf d 9 = false := by rw [bitOf, beq_eq_false_iff_ne]; omega
  have h8 : bitOf d 8 = false := by rw [bitOf, beq_eq_false_iff_ne]; omega
  have hl : fld d 7 0 = d := by simp only [fld]; omega
  simp [dstIllegal, h9, h8, hl, hr]

/-- A plain word with a legal source and destination passes the static checks. -/
theorem staticFault_encodePlain (m : PlainHead) {d : Nat} (hd : d < 2 ^ 10) (hok : m.ok = true) (hdst : dstIllegal d = false)
    (hu : 2 ^ 9 ≤ d → d / 2 ^ 5 % 16 < 12) : staticFault (oneMove (encodePlain m d)) = none := by
  have hsrc : srcIllegal 0 m.src.toNat = false := by simpa [PlainHead.ok, srcOk] using hok
  refine staticFault_oneMove _ (by have := encodePlain_lt m d hd; omega) ?_ ?_
  · rw [badUnit, encodePlain_isPort m d hd, encodePlain_unit m d hd, ← Bool.decide_and, decide_eq_false_iff_not]
    omega
  · rw [badMove, encodePlain_src m d hd, hsrc, encodePlain_dst m d hd, hdst, encodePlain_w m d hd]
    rfl

/-- What reading leaves of a word that is no trigger: no trigger, and the word's move, if its guard lets it through, before the empty ones. -/
theorem readyFor_plain (s : State) (core x w : Nat) (hw : w < 2 ^ 24)
    (ht : moveTakes ((s.atIssue core x).ctx core x) w = true → mvIsTrig w = false) :
    ((s.settleLoops core x).readyFor core x (oneMove w)).ts = []
      ∧ ((s.settleLoops core x).readyFor core x (oneMove w)).ms
        = movesOf s core x w (moveTakes ((s.atIssue core x).ctx core x) w) := by
  have hipf : hdrIPF 0 = 0 := by decide
  have hread : (s.settleLoops core x).modCore core (fun k => k.deliver x) = s.atIssue core x := rfl
  simp only [State.readyFor, oneMove_hdr, oneMove_pool, oneMove_moves w hw, hipf, hread,
    show BitVec.toNat (0 : BitVec 32) = 0 from rfl, takenMoves_movesOf, trigsOf_movesOf s _ core x w _ ht, and_self]

section Plain
variable (m : PlainHead) (s : State) (core x : Nat)

/-- The move that a plain word to destination d makes. -/
def plainMoveOf (d : Nat) : Move := ⟨0, encodePlain m d, (s.atIssue core x).readSrc core x 0 0 m.src.toNat⟩

variable (hfree : s.free core x = true) (htk : s.takes core x m.grd.toNat m.inv.toNat m.src.toNat = true) {d : Nat} (hd : d < 2 ^ 10)
include htk hd

theorem moveTakes_encodePlain : moveTakes ((s.atIssue core x).ctx core x) (encodePlain m d) = true := by
  simp only [State.takes, Bool.and_eq_true, decide_eq_true_eq] at htk
  obtain ⟨⟨⟨hguard, -⟩, -⟩, -⟩ := htk
  rw [moveTakes, encodePlain_grd m d hd, encodePlain_inv m d hd, hguard]
  rfl

include hfree

/-- A plain move that takes place has its effect on the context alone. -/
theorem issue_plainMove (hs : staticFault (oneMove (encodePlain m d)) = none) (ht : mvIsTrig (encodePlain m d) = false)
    (hbo : badOverride (plainMoveOf m s core x d) = false) :
    issueBundle (oneMove (encodePlain m d)) s = s.issued core x (fun c => c.moveEffect (plainMoveOf m s core x d)) := by
  have htakes := moveTakes_encodePlain m s core x htk hd
  simp only [State.takes, Bool.and_eq_true, Bool.or_eq_true, decide_eq_true_eq, Option.isNone_iff_eq_none] at htk
  obtain ⟨⟨⟨-, hguard⟩, hsrc⟩, hzero⟩ := htk
  have hgm : (if mvGrd (encodePlain m d) = 0 then none
      else ((s.atIssue core x).ctx core x).bank.mark (0xA0 + mvGrd (encodePlain m d))) = none := by
    rw [encodePlain_grd m d hd]
    split
    · rfl
    · exact hguard.resolve_left (by assumption)
  have hmain := issue_plain s core x (encodePlain m d) (by have := encodePlain_lt m d hd; omega) hs hfree (fun _ => ht)
    (fun _ => by rw [encodePlain_src m d hd]; exact hsrc) (fun _ => by rw [encodePlain_src m d hd]; exact hbo) hgm hzero
  simpa only [plainMoveOf, htakes, if_true, encodePlain_src m d hd] using hmain

/-- A move to port d whose value names no register takes the trap of its slot. -/
theorem issue_badOverride (hs : staticFault (oneMove (encodePlain m d)) = none) (ht : mvIsTrig (encodePlain m d) = false)
    (hbo : badOverride (plainMoveOf m s core x d) = true) :
    issueBundle (oneMove (encodePlain m d)) s = (s.settleLoops core x).takeTrap core x { cause := cILLEGAL_MOVE, pos := 0 } := by
  have hlt := encodePlain_lt m d hd
  have htakes := moveTakes_encodePlain m s core x htk hd
  obtain ⟨hts, hms⟩ := readyFor_plain s core x (encodePlain m d) (by omega) (fun _ => ht)
  refine issue_verdictFault s core x _ _ hfree hs (verdict_slotFault _ core x _ _ ?_ ?_)
  · rw [hts]; rfl
  · rw [hms, htakes, movesOf, encodePlain_src m d hd]
    exact slotFaults_override _ core x (plainMoveOf m s core x d) _ 0 hbo

end Plain

/-- A plain move to a register is a write of latency 1, but to s0, m0 and g0 (R102, R103). -/
theorem moveEffect_register (m : PlainHead) (s : State) (core x : Nat) (c : Ctx) {d : Nat} (hd : d < 2 ^ 8) (hr : isReg d = true) :
    c.moveEffect (plainMoveOf m s core x d) = Claims.writes c 0 d ((s.atIssue core x).readSrc core x 0 0 m.src.toNat).val := by
  have hd' : d < 2 ^ 10 := by omega
  have hport : (plainMoveOf m s core x d).toPort = false := by
    rw [Move.toPort, plainMoveOf, encodePlain_isPort m d hd', decide_eq_false (by omega)]
  have hdst : mvDst (plainMoveOf m s core x d).word = d := encodePlain_dst m d hd'
  have hwr : isWritable d = true ↔ ¬(d = 0 ∨ d = 0x80 ∨ d = 0xA0) := by simp [isWritable, hr]; omega
  rw [Ctx.moveEffect, hport, Ctx.plainMove, hdst, Claims.writes]
  simp only [Bool.false_eq_true, if_false]
  by_cases h : d = 0 ∨ d = 0x80 ∨ d = 0xA0
  · rw [if_pos h, if_neg (fun hw => hwr.mp hw h)]
  · rw [if_neg h, if_pos (hwr.mpr h)]; rfl

section Port
variable (m : PlainHead) (s : State) (core x : Nat) {u k : Nat} (hu : u < 12) (hk : k < 4)
include hu hk

theorem portWord_facts : 2 ^ 9 + u * 2 ^ 5 + k < 2 ^ 10 ∧ mvIsPort (encodePlain m (2 ^ 9 + u * 2 ^ 5 + k)) = true
    ∧ mvUnit (encodePlain m (2 ^ 9 + u * 2 ^ 5 + k)) = u ∧ mvPort (encodePlain m (2 ^ 9 + u * 2 ^ 5 + k)) = k
    ∧ mvIsTrig (encodePlain m (2 ^ 9 + u * 2 ^ 5 + k)) = false := by
  have hlt : 2 ^ 9 + u * 2 ^ 5 + k < 2 ^ 10 := by omega
  have hport : mvPort (encodePlain m (2 ^ 9 + u * 2 ^ 5 + k)) = k := by rw [encodePlain_port m _ hlt]; omega
  refine ⟨hlt, by rw [encodePlain_isPort m _ hlt]; exact decide_eq_true (by omega), by rw [encodePlain_unit m _ hlt]; omega, hport, ?_⟩
  rw [mvIsTrig, hport, decide_eq_false (by omega), Bool.and_false]

theorem staticFault_portWord (hok : m.ok = true) : staticFault (oneMove (encodePlain m (2 ^ 9 + u * 2 ^ 5 + k))) = none := by
  have hl : 3 < lastPort u := by
    have : ∀ v, v < 12 → 3 < lastPort v := by decide
    exact this u hu
  exact staticFault_encodePlain m (by omega) hok (dstIllegal_port u k hu (by omega)) (by omega)

/-- A move to port k of unit u writes that port alone. -/
theorem moveEffect_port (c : Ctx) : c.moveEffect (plainMoveOf m s core x (2 ^ 9 + u * 2 ^ 5 + k))
    = c.setUnit u ((c.unit u).write u k ((s.atIssue core x).readSrc core x 0 0 m.src.toNat).val) := by
  obtain ⟨-, hp, hunit, hport, -⟩ := portWord_facts m hu hk
  rw [Ctx.moveEffect, show (plainMoveOf m s core x (2 ^ 9 + u * 2 ^ 5 + k)).toPort = true from hp, if_pos rfl,
    show (plainMoveOf m s core x (2 ^ 9 + u * 2 ^ 5 + k)).unit = u from hunit,
    show (plainMoveOf m s core x (2 ^ 9 + u * 2 ^ 5 + k)).port = k from hport]
  rfl

/-- Only port d checks its value (R110). -/
theorem badOverride_port : badOverride (plainMoveOf m s core x (2 ^ 9 + u * 2 ^ 5 + k))
    = (k == 2 && !(isReg (((s.atIssue core x).readSrc core x 0 0 m.src.toNat).val.toS.toNat % 256))) := by
  obtain ⟨-, hp, -, hport, -⟩ := portWord_facts m hu hk
  rw [badOverride, show (plainMoveOf m s core x (2 ^ 9 + u * 2 ^ 5 + k)).toPort = true from hp,
    show (plainMoveOf m s core x (2 ^ 9 + u * 2 ^ 5 + k)).port = k from hport, Bool.true_and]
  rfl

/-- A free context's move to a port a, b, d or cfg completes, when its value may stand there. -/
theorem issue_portMove (hok : m.ok = true) (hfree : s.free core x = true)
    (htk : s.takes core x m.grd.toNat m.inv.toNat m.src.toNat = true)
    (hv : k = 2 → isReg (((s.atIssue core x).readSrc core x 0 0 m.src.toNat).val.toS.toNat % 256) = true) :
    issueBundle (oneMove (encodePlain m (2 ^ 9 + u * 2 ^ 5 + k))) s = s.issued core x (fun c =>
      c.setUnit u ((c.unit u).write u k ((s.atIssue core x).readSrc core x 0 0 m.src.toNat).val)) := by
  obtain ⟨hlt, -, -, -, ht⟩ := portWord_facts m hu hk
  have hbo : badOverride (plainMoveOf m s core x (2 ^ 9 + u * 2 ^ 5 + k)) = false := by
    rw [badOverride_port m s core x hu hk]
    by_cases h : k = 2
    · rw [hv h, Bool.not_true, Bool.and_false]
    · rw [beq_eq_false_iff_ne.mpr h, Bool.false_and]
  rw [issue_plainMove m s core x hfree htk hlt (staticFault_portWord m hu hk hok) ht hbo]
  exact congrArg _ (funext (moveEffect_port m s core x hu hk))

end Port

/-- The ports of R109 that hold vectors are those of the model. -/
theorem held_a {u : Nat} (hu : u < 12) (v : Val) : Claims.held u false v = portVal (portAVec u) v := by
  have : ∀ k, k < 12 → Claims.vectorPort k false = portAVec k := by decide
  rw [Claims.held, this u hu, portVal]
theorem held_b {u : Nat} (hu : u < 12) (v : Val) : Claims.held u true v = portVal (portBVec u) v := by
  have : ∀ k, k < 12 → Claims.vectorPort k true = portBVec k := by decide
  rw [Claims.held, this u hu, portVal]

/-- Settles O11: the one move of the bundle takes place, and its effect is a write of latency 1 or a port write. -/
theorem movesAndPorts : Obligations.MovesAndPorts := by
  intro m s core x hok hfree htk v
  refine ⟨?register, ?ports⟩
  case register =>
    intro d hr
    have hd := d.isLt
    have hlt : d.toNat < 2 ^ 10 := by omega
    have hp : mvIsPort (encodePlain m d.toNat) = false := by
      rw [encodePlain_isPort m _ hlt, decide_eq_false (by omega)]
    have hs := staticFault_encodePlain m hlt hok (dstIllegal_register hd hr) (by omega)
    refine congrArg Host.Outcome.next ((issue_plainMove m s core x hfree htk hlt hs ?_ ?_).trans ?_)
    · rw [mvIsTrig, hp, Bool.false_and]
    · rw [badOverride, show (plainMoveOf m s core x d.toNat).toPort = false from hp]; rfl
    · exact congrArg _ (funext fun c => moveEffect_register m s core x c hd hr)
  case ports =>
    intro u hu put
    refine ⟨?a, ?b, ?cfg, ?d, ?noRegister⟩
    case a =>
      refine congrArg Host.Outcome.next ((issue_portMove m s core x hu (k := 0) (by decide) hok hfree htk (by simp)).trans ?_)
      rw [held_a hu]; rfl
    case b =>
      refine congrArg Host.Outcome.next ((issue_portMove m s core x hu (k := 1) (by decide) hok hfree htk (by simp)).trans ?_)
      rw [held_b hu]; rfl
    case cfg =>
      exact congrArg Host.Outcome.next (issue_portMove m s core x hu (k := 3) (by decide) hok hfree htk (by simp))
    case d =>
      intro hreg
      exact congrArg Host.Outcome.next (issue_portMove m s core x hu (k := 2) (by decide) hok hfree htk (fun _ => hreg))
    case noRegister =>
      intro hreg
      obtain ⟨hlt, -, -, -, ht⟩ := portWord_facts m hu (k := 2) (by decide)
      refine congrArg Host.Outcome.next
        (issue_badOverride m s core x hfree htk hlt (staticFault_portWord m hu (by decide) hok) ht ?_)
      rw [badOverride_port m s core x hu (by decide), hreg]; rfl

end Sys2Proof.Machine
end

section
/-! SUPPORT. The register file (R102, R105, R106, R410): the conversions between the classes lane by lane, and what a write of a register
leaves to read; then the statements about them. -/

namespace Sys2Proof.Machine

/-! ### Conversions between the classes (R105) -/

/-- n copies of a number below 2^w fill w·n bits. -/
theorem repNat_lt (w : Nat) {x : Nat} (hx : x < 2 ^ w) : ∀ n, repNat w x n < 2 ^ (w * n)
  | 0 => Nat.one_pos
  | n + 1 => by
    rw [repNat, Nat.mul_succ, Nat.add_comm (w * n)]
    exact part_lt w (w * n) x _ hx (repNat_lt w hx n)

/-- Each of n copies of a number below 2^w is read back. -/
theorem repNat_lane (w : Nat) {x : Nat} (hx : x < 2 ^ w) : ∀ n i, i < n → repNat w x n / 2 ^ (w * i) % 2 ^ w = x
  | n + 1, 0, _ => by rw [Nat.mul_zero, Nat.pow_zero, Nat.div_one, repNat, (parts w x _ hx).2]
  | n + 1, i + 1, h => by
    rw [Nat.mul_succ, Nat.add_comm (w * i), Nat.pow_add, ← Nat.div_div_eq_div_mul, repNat, (parts w x _ hx).1]
    exact repNat_lane w hx n i (by omega)

/-- Lane i of n copies of a word is the word. -/
theorem lane_repNat {x : Nat} (hx : x < 2 ^ 32) {n i : Nat} (hi : i < n) :
    (BitVec.ofNat (32 * n) (repNat 32 x n)).extractLsb' (32 * i) 32 = BitVec.ofNat 32 x := by
  apply BitVec.eq_of_toNat_eq
  rw [BitVec.extractLsb'_toNat, BitVec.toNat_ofNat, Nat.mod_eq_of_lt (repNat_lt 32 hx n), Nat.shiftRight_eq_div_pow,
    repNat_lane 32 hx n i hi, BitVec.toNat_ofNat, Nat.mod_eq_of_lt hx]

/-- Settles O10: a value of class S or G fills every lane; every other conversion keeps the low bits. -/
theorem classConversions : Obligations.ClassConversions := by
  refine ⟨?scalar, ?guard, fun _ => rfl, fun _ => rfl, fun _ => ⟨rfl, rfl, rfl⟩, fun _ => ⟨rfl, rfl, rfl⟩, fun _ => ⟨rfl, rfl, rfl⟩,
    fun _ => ⟨rfl, rfl, rfl⟩⟩
  case scalar =>
    intro x i hi
    have hx : x.toNat % 2 ^ 32 < 2 ^ 32 := Nat.mod_lt _ (by decide)
    refine (lane_repNat (n := 128) hx hi).trans (BitVec.eq_of_toNat_eq ?_)
    rw [BitVec.toNat_ofNat, Nat.mod_mod, BitVec.toNat_setWidth]
  case guard =>
    intro b i hi
    have hb : b.toNat < 2 ^ 32 := by omega
    refine (lane_repNat (n := 128) hb hi).trans ?_
    rw [BitVec.ofNat_toNat]

/-! ### Registers (R102, R106, R410) -/

section Registers
variable (b : Bank) {r : Nat} (v : Val) (mark : Option Dw)

/-- The marks after a write of register r (R410). -/
def Bank.marksAfter (r : Nat) : Sp Dw :=
  match mark with
  | some a => Sp.put b.marks r a
  | none => Sp.erase b.marks r

theorem Bank.find?_marksAfter_ne {q : Nat} (h : q ≠ r) : (b.marksAfter mark r).find? q = b.marks.find? q := by
  cases mark with
  | none => exact Sp.find?_erase_ne _ _ _ h
  | some a => exact Sp.find?_put_ne _ _ _ _ h

theorem Bank.find?_marksAfter_same (hs : Sp.sortedFrom 0 b.marks = true) : (b.marksAfter mark r).find? r = mark := by
  cases mark with
  | none => exact Sp.find?_erase_same _ 0 _ hs
  | some a => exact Sp.find?_put_same _ _ _

theorem Bank.sorted_marksAfter (hs : Sp.sortedFrom 0 b.marks = true) : Sp.sortedFrom 0 (b.marksAfter mark r) = true := by
  cases mark with
  | none => exact Sp.sorted_erase _ 0 _ hs
  | some a => exact Sp.sorted_put _ 0 _ _ hs (Nat.zero_le _)

theorem Bank.write_ignored (h : r = 0 ∨ r = 0x80 ∨ r = 0xA0 ∨ 0xA4 ≤ r) : b.write r v mark = b := if_pos h

/-! A write of a register changes the one list of its class, and the marks. -/

theorem Bank.write_s (h0 : r ≠ 0) (h : r < 0x40) :
    b.write r v mark = { b with marks := b.marksAfter mark r, s := Sp.set 0 b.s r v.toS } := by
  unfold Bank.write
  rw [if_neg (by omega)]
  exact if_pos h
theorem Bank.write_v (h : ¬r < 0x40) (h' : r < 0x80) :
    b.write r v mark = { b with marks := b.marksAfter mark r, v := Sp.set 0 b.v (r - 0x40) v.toV } := by
  unfold Bank.write
  rw [if_neg (by omega)]
  exact (if_neg h).trans (if_pos h')
theorem Bank.write_m (h0 : r ≠ 0x80) (h : ¬r < 0x80) (h' : r < 0x90) :
    b.write r v mark = { b with marks := b.marksAfter mark r, m := Sp.set 0 b.m (r - 0x80) v.toM } := by
  unfold Bank.write
  rw [if_neg (by omega)]
  exact (if_neg (by omega)).trans ((if_neg h).trans (if_pos h'))
theorem Bank.write_a (h : ¬r < 0x90) (h' : r < 0xA0) :
    b.write r v mark = { b with marks := b.marksAfter mark r, a := Sp.set 0 b.a (r - 0x90) v.toS } := by
  unfold Bank.write
  rw [if_neg (by omega)]
  exact (if_neg (by omega)).trans ((if_neg (by omega)).trans ((if_neg h).trans (if_pos h')))
theorem Bank.write_g (h0 : r ≠ 0xA0) (h : ¬r < 0xA0) (h' : r ≤ 0xA3) :
    b.write r v mark = { b with marks := b.marksAfter mark r, g := Sp.set 0 b.g (r - 0xA0) v.toG } := by
  unfold Bank.write
  rw [if_neg (by omega)]
  exact (if_neg (by omega)).trans ((if_neg (by omega)).trans ((if_neg (by omega)).trans (if_neg h)))

/-- A register that is not hard-wired stands in one of the five lists (R106). -/
theorem register_class (h : ¬(r = 0 ∨ r = 0x80 ∨ r = 0xA0 ∨ 0xA4 ≤ r)) : (r ≠ 0 ∧ r < 0x40) ∨ (¬r < 0x40 ∧ r < 0x80)
    ∨ (r ≠ 0x80 ∧ ¬r < 0x80 ∧ r < 0x90) ∨ (¬r < 0x90 ∧ r < 0xA0) ∨ (r ≠ 0xA0 ∧ ¬r < 0xA0 ∧ r ≤ 0xA3) := by omega

theorem Bank.write_marks (h : ¬(r = 0 ∨ r = 0x80 ∨ r = 0xA0 ∨ 0xA4 ≤ r)) : (b.write r v mark).marks = b.marksAfter mark r := by
  obtain ⟨h0, h⟩ | ⟨h, h'⟩ | ⟨h0, h, h'⟩ | ⟨h, h'⟩ | ⟨h0, h, h'⟩ := register_class h
  · rw [Bank.write_s b v mark h0 h]
  · rw [Bank.write_v b v mark h h']
  · rw [Bank.write_m b v mark h0 h h']
  · rw [Bank.write_a b v mark h h']
  · rw [Bank.write_g b v mark h0 h h']

theorem Bank.mark_write_ne {q : Nat} (h : q ≠ r) : (b.write r v mark).mark q = b.mark q := by
  by_cases hi : r = 0 ∨ r = 0x80 ∨ r = 0xA0 ∨ 0xA4 ≤ r
  · rw [Bank.write_ignored b v mark hi]
  · rw [Bank.mark, Bank.write_marks b v mark hi, Bank.find?_marksAfter_ne b mark h]; rfl

/-- A write leaves every other register: one of another class has another list, one of the same class another place in it. -/
theorem Bank.read_write_ne {q : Nat} (hq : q ≠ r) : (b.write r v mark).read q = b.read q := by
  by_cases hi : r = 0 ∨ r = 0x80 ∨ r = 0xA0 ∨ 0xA4 ≤ r
  · rw [Bank.write_ignored b v mark hi]
  obtain ⟨h0, h⟩ | ⟨h, h'⟩ | ⟨h0, h, h'⟩ | ⟨h, h'⟩ | ⟨h0, h, h'⟩ := register_class hi
  · rw [Bank.write_s b v mark h0 h]
    simp only [Bank.read, Sp.get_set_ne _ _ _ _ _ hq]
  · rw [Bank.write_v b v mark h h']
    by_cases hl : q < 0x40
    · simp only [Bank.read, hl, if_true]
    · simp only [Bank.read, Sp.get_set_ne _ _ _ _ _ (show q - 0x40 ≠ r - 0x40 by omega)]
  · rw [Bank.write_m b v mark h0 h h']
    by_cases hl : q < 0x80
    · simp only [Bank.read, hl, if_true]
    · simp only [Bank.read, Sp.get_set_ne _ _ _ _ _ (show q - 0x80 ≠ r - 0x80 by omega)]
  · rw [Bank.write_a b v mark h h']
    by_cases hl : q < 0x90
    · simp only [Bank.read, hl, if_true]
    · simp only [Bank.read, Sp.get_set_ne _ _ _ _ _ (show q - 0x90 ≠ r - 0x90 by omega)]
  · rw [Bank.write_g b v mark h0 h h']
    by_cases hl : q < 0xA0
    · simp only [Bank.read, hl, if_true]
    · simp only [Bank.read, Sp.get_set_ne _ _ _ _ _ (show q - 0xA0 ≠ r - 0xA0 by omega)]

theorem bankOk_iff : Claims.bankOk b = true ↔ Sp.wf 0 b.s = true ∧ Sp.wf 0 b.v = true ∧ Sp.wf 0 b.m = true ∧ Sp.wf 0 b.a = true
    ∧ Sp.wf 0 b.g = true ∧ Sp.sortedFrom 0 b.marks = true := by
  simp only [Claims.bankOk, Bool.and_eq_true, and_assoc]

/-- A register that is not hard-wired reads back what was written, as its class holds it, and the file stays canonical. -/
theorem Bank.read_write_same (hi : ¬(r = 0 ∨ r = 0x80 ∨ r = 0xA0 ∨ 0xA4 ≤ r)) (hb : Claims.bankOk b = true) :
    (b.write r v mark).read r = Claims.asClass r v ∧ Claims.bankOk (b.write r v mark) = true := by
  obtain ⟨ws, wv, wm, wa, wg, wk⟩ := (bankOk_iff b).mp hb
  have wk' : Sp.sortedFrom 0 (b.marksAfter mark r) = true := Bank.sorted_marksAfter b mark wk
  obtain ⟨h0, h⟩ | ⟨h, h'⟩ | ⟨h0, h, h'⟩ | ⟨h, h'⟩ | ⟨h0, h, h'⟩ := register_class hi
  · rw [Bank.write_s b v mark h0 h]
    refine ⟨?_, (bankOk_iff _).mpr ⟨Sp.wf_set _ _ _ _ ws, wv, wm, wa, wg, wk'⟩⟩
    simp only [Bank.read, Claims.asClass, h, h0, if_true, if_false, Sp.get_set_same _ _ _ _ ws]
  · rw [Bank.write_v b v mark h h']
    refine ⟨?_, (bankOk_iff _).mpr ⟨ws, Sp.wf_set _ _ _ _ wv, wm, wa, wg, wk'⟩⟩
    simp only [Bank.read, Claims.asClass, h, h', if_true, if_false, Sp.get_set_same _ _ _ _ wv]
  · have h40 : ¬r < 0x40 := by omega
    rw [Bank.write_m b v mark h0 h h']
    refine ⟨?_, (bankOk_iff _).mpr ⟨ws, wv, Sp.wf_set _ _ _ _ wm, wa, wg, wk'⟩⟩
    simp only [Bank.read, Claims.asClass, h40, h, h', h0, if_true, if_false, Sp.get_set_same _ _ _ _ wm]
  · have h40 : ¬r < 0x40 := by omega
    have h80 : ¬r < 0x80 := by omega
    rw [Bank.write_a b v mark h h']
    refine ⟨?_, (bankOk_iff _).mpr ⟨ws, wv, wm, Sp.wf_set _ _ _ _ wa, wg, wk'⟩⟩
    simp only [Bank.read, Claims.asClass, h40, h80, h, h', if_true, if_false, Sp.get_set_same _ _ _ _ wa]
  · have h40 : ¬r < 0x40 := by omega
    have h80 : ¬r < 0x80 := by omega
    have h90 : ¬r < 0x90 := by omega
    have hA4 : r < 0xA4 := by omega
    rw [Bank.write_g b v mark h0 h h']
    refine ⟨?_, (bankOk_iff _).mpr ⟨ws, wv, wm, wa, Sp.wf_set _ _ _ _ wg, wk'⟩⟩
    simp only [Bank.read, Claims.asClass, h40, h80, h90, h, hA4, h0, if_true, if_false, Sp.get_set_same _ _ _ _ wg]

end Registers

/-- The hard-wired registers of R106 are those that a write leaves alone. -/
theorem hardWired_none_iff {r : Nat} (hr : r ≤ 0xA3) : Claims.hardWired r = none ↔ ¬(r = 0 ∨ r = 0x80 ∨ r = 0xA0 ∨ 0xA4 ≤ r) := by
  unfold Claims.hardWired
  split; · exact ⟨nofun, fun h => absurd (.inl ‹_›) h⟩
  split; · exact ⟨nofun, fun h => absurd (.inr (.inl ‹_›)) h⟩
  split; · exact ⟨nofun, fun h => absurd (.inr (.inr (.inl ‹_›))) h⟩
  · exact ⟨fun _ => by omega, fun _ => rfl⟩

/-- s0, m0 and g0 ignore a write and read as they are wired (R102, R106). -/
theorem hardWired_write_read {r : Nat} {h : Val} (hw : Claims.hardWired r = some h) (b : Bank) (v : Val) (mark : Option Dw) :
    b.write r v mark = b ∧ b.read r = h := by
  unfold Claims.hardWired at hw
  split at hw
  · subst r; cases hw; exact ⟨rfl, rfl⟩
  split at hw
  · subst r; cases hw; exact ⟨rfl, rfl⟩
  split at hw
  · subst r; cases hw; exact ⟨rfl, rfl⟩
  · cases hw

/-- Settles O55: the hard-wired registers apart, a register is a place in the list of its class. -/
theorem registerFile : Obligations.RegisterFile := by
  intro b r v mark hr
  refine ⟨fun h hw => hardWired_write_read hw b v mark, ?written, fun q hq => ⟨Bank.read_write_ne b v mark hq, Bank.mark_write_ne b v mark hq⟩⟩
  case written =>
    intro hw hb
    have hi := (hardWired_none_iff hr).mp hw
    obtain ⟨-, -, -, -, -, hmarks⟩ := (bankOk_iff b).mp hb
    obtain ⟨hread, hok⟩ := Bank.read_write_same b v mark hi hb
    refine ⟨hread, ?_, hok⟩
    rw [Bank.mark, Bank.write_marks b v mark hi, Bank.find?_marksAfter_same b mark hmarks]

end Sys2Proof.Machine
end
